-- ==== Sys2Proof/Word.lean ====
section
/-! DEFINITION. The word types of the wire format and their plainest arithmetic (spec/00_scope.md R6, R7). -/

namespace Sys2Proof

/-- A byte of the stream, of the frame buffer or of the image: 8 bits (R7). -/
abbrev Byte := BitVec 8

/-- A 16-bit field or register: cylinder, checksum, `CRC_ACC` (R6). -/
abbrev Half := BitVec 16

/-- `force v k` is `k v` (lemma `force_eq`).  It only makes the value of `v` be computed before `k` goes on, so that
the kernel can evaluate a long fold on numerals. -/
def force {w : Nat} {α : Type} (v : BitVec w) (k : BitVec w → α) : α :=
  match v.toNat with
  | 0 => k (BitVec.ofNat w 0)
  | n + 1 => k (BitVec.ofNat w (n + 1))

@[simp] theorem force_eq {w : Nat} {α : Type} (v : BitVec w) (k : BitVec w → α) : force v k = k v := by
  have h : BitVec.ofNat w v.toNat = v := by simp
  unfold force
  cases hv : v.toNat with
  | zero => rw [hv] at h; exact congrArg k h
  | succ n => rw [hv] at h; exact congrArg k h

end Sys2Proof
end

