-- ==== Sys2Proof/Machine/Mapper.lean ====
section
/-! DEFINITION. The geometry-to-offset mapper (spec/43_lba_mapper.md): pure functions of a header's `max_head` and
`max_sector` and a data frame's cylinder, head and sector. -/

namespace Sys2Proof.Machine

/-- The index of the track, counting from 0 (R161). -/
def trackIndex (maxHead : Byte) (cylinder : Half) (head : Byte) : Nat :=
  cylinder.toNat * (maxHead.toNat + 1) + head.toNat

/-- The formula of R160 over the mathematical integers; used only where `lbaUndefined` is false. -/
def lbaNat (maxHead maxSector : Byte) (cylinder : Half) (head sector : Byte) : Nat :=
  trackIndex maxHead cylinder head * maxSector.toNat + (sector.toNat - 1)

/-- The LBA has no value: `max_sector == 0` or `sector == 0` (R166). -/
def lbaUndefined (maxSector sector : Byte) : Bool := maxSector == 0#8 || sector == 0#8

/-- `lba`, 32 bits, and no number where it is undefined (R160, R163, R166). -/
def lba (maxHead maxSector : Byte) (cylinder : Half) (head sector : Byte) : Option (BitVec 32) :=
  if lbaUndefined maxSector sector then none
  else some (BitVec.ofNat 32 (lbaNat maxHead maxSector cylinder head sector))

/-- `offset(lba) = 512 * lba`, 41 bits (R162). -/
def offset (l : BitVec 32) : BitVec 41 := l.zeroExtend 41 <<< 9

/-- The inverse of the mapper on block index `k`, for `H` heads per cylinder and `S` sectors per track (R167). -/
def chsOfBlock (H S k : Nat) : Nat × Nat × Nat := (k / (H * S), k / S % H, k % S + 1)

end Sys2Proof.Machine
end

