-- ==== Sys2Proof/Config.lean ====
section
/-! DEFINITION. The constants the spec fixes (spec/00_scope.md R6) and the free values of the model. -/

namespace Sys2Proof.Config

/-- `SECTOR_BYTES`: payload bytes of one data frame (R6). -/
@[simp] abbrev sectorBytes : Nat := 512

/-- `HDR_LEN`: length of a header frame, tag included (R6, R60). -/
@[simp] abbrev hdrLen : Nat := 8

/-- `DAT_LEN`: length of a data frame, tag included (R6, R60); 520 and not the printed 519 (spec/90_conflicts.md C1). -/
@[simp] abbrev datLen : Nat := 520

/-- `END_LEN`: length of the terminator frame (R6, R60). -/
@[simp] abbrev endLen : Nat := 1

/-- `TAG_HDR`, `TAG_DAT`, `TAG_END` (R6, R64). -/
@[simp] abbrev tagHdr : Byte := 0x00#8
@[simp] abbrev tagDat : Byte := 0x01#8
@[simp] abbrev tagEnd : Byte := 0xFF#8

/-- `CRC_POLY` (R6, R90).  The final XOR of R6 is 0, so no constant is kept for it. -/
@[simp] abbrev crcPoly : Half := 0x1021#16

/-- `CRC_INIT` (R6, R90). -/
@[simp] abbrev crcInit : Half := 0x0000#16

/-- One past the last byte address of the image: offsets are 41 bits (R44, R164). -/
@[simp] abbrev imageLimit : Nat := 2 ^ 41

/-- FREE VALUE: what `MAX_HEAD` reads as while it holds no value (spec/93_implementation_defined.md U4: any value).
No rule reads it then, and no state of a run does (`Inv`); log entry 3. -/
opaque unsetMaxHead : Byte

/-- FREE VALUE: what `MAX_SECTOR` reads as while it holds no value (U4: any value); log entry 3. -/
opaque unsetMaxSector : Byte

end Sys2Proof.Config
end

