-- ==== Sys2Proof/Syntax.lean ====
section
/-! DEFINITION. The instructions: the three frame shapes, one constructor per row of spec/opcode_table.json
(spec/00_scope.md R5, spec/30_encoding.md R60 to R63). -/

namespace Sys2Proof

/-- A frame with its fields as received.  The checksum is a field like the others: every value of it is legal on the
wire and is judged by the frame operation (R69, R95). -/
inductive Instr where
  /-- `HDR`, tag 0x00, 8 bytes (R61). -/
  | hdr (status : Byte) (maxCylinder : Half) (maxHead maxSector : Byte) (crcRx : Half)
  /-- `DAT`, tag 0x01, 520 bytes; the payload is 512 bytes in wire order (R62). -/
  | dat (status : Byte) (cylinder : Half) (head sector : Byte) (payload : List Byte) (crcRx : Half)
  /-- `END`, tag 0xFF, 1 byte, no field (R63). -/
  | endOfTransfer
  deriving DecidableEq, Repr

/-- The three frame shapes the tag tells apart (R60, R64). -/
inductive FrameShape where
  | header
  | data
  | terminator
  deriving DecidableEq, Repr

/-- The shape of an instruction. -/
def Instr.shape : Instr → FrameShape
  | .hdr .. => .header
  | .dat .. => .data
  | .endOfTransfer => .terminator

end Sys2Proof
end

