-- ==== Sys2Proof/WellFormed.lean ====
section
/-! DEFINITION. Which terms of `Instr` are frames.  Every field has its wire width by type (spec/30_encoding.md R69:
every value of every field is legal), so one check is left: the payload's length (R62). -/

namespace Sys2Proof

/-- A data frame carries exactly 512 payload bytes (R62). -/
def Instr.wf : Instr → Bool
  | .hdr .. => true
  | .dat _ _ _ _ payload _ => payload.length == Config.sectorBytes
  | .endOfTransfer => true

end Sys2Proof
end

