-- ==== Sys2Proof/Decode.lean ====
section
/-! DEFINITION. From bytes to a frame and back (spec/30_encoding.md R60 to R68, R83): the tag map, field assembly, the
decoder (total on any bytes, rejecting by name), then the encoder, written from the same tables. -/

namespace Sys2Proof

/-- `le16(lo, hi)`: the byte at the lower frame index is the less significant (R48, R66). -/
def le16 (lo hi : Byte) : Half := hi ++ lo

/-- The low byte of a 16-bit field, the first on the wire (R66). -/
def lowByte (v : Half) : Byte := v.extractLsb' 0 8

/-- The high byte of a 16-bit field, the second on the wire (R66). -/
def highByte (v : Half) : Byte := v.extractLsb' 8 8

/-- The tag map: all 8 bits are compared; 0x02 to 0xFE select nothing (R64, R68). -/
def shapeOfTag (tag : Byte) : Option FrameShape :=
  if tag = Config.tagHdr then some .header
  else if tag = Config.tagDat then some .data
  else if tag = Config.tagEnd then some .terminator
  else none

/-- The length of each frame shape, tag included (R60, R65). -/
def FrameShape.len : FrameShape → Nat
  | .header => Config.hdrLen
  | .data => Config.datLen
  | .terminator => Config.endLen

/-- How many bytes from the tag on enter `CRC_ACC` (R67, R114, R116; of a terminator only the tag, R112). -/
def FrameShape.covered : FrameShape → Nat
  | .header => Config.hdrLen - 2
  | .data => Config.datLen - 2
  | .terminator => 1

/-- `frame_len(tag)`; no length for an illegal tag (R65). -/
def frameLen (tag : Byte) : Option Nat := (shapeOfTag tag).map FrameShape.len

/-- Byte `k` of a frame. -/
def byteAt (b : List Byte) (k : Nat) : Byte := b.getD k 0#8

/-- The fields of a header frame (R61, R83); byte 0 is not looked at again. -/
def decodeHeader (b : List Byte) : Instr :=
  .hdr (byteAt b 1) (le16 (byteAt b 2) (byteAt b 3)) (byteAt b 4) (byteAt b 5) (le16 (byteAt b 6) (byteAt b 7))

/-- The fields of a data frame (R62, R83); byte 0 is not looked at again. -/
def decodeData (b : List Byte) : Instr :=
  .dat (byteAt b 1) (le16 (byteAt b 2) (byteAt b 3)) (byteAt b 4) (byteAt b 5)
    ((b.drop 6).take Config.sectorBytes) (le16 (byteAt b 518) (byteAt b 519))

/-- The decoder the tag chose (R64, R83). -/
def decodeShape : FrameShape → List Byte → Instr
  | .header, b => decodeHeader b
  | .data, b => decodeData b
  | .terminator, _ => .endOfTransfer

/-- Why some bytes are no frame. -/
inductive DecodeReject where
  /-- There is no byte, so no tag. -/
  | noTag
  /-- The tag is one of 0x02 to 0xFE (R68). -/
  | unknownTag (tag : Byte)
  /-- Fewer bytes than the tag's fixed length (R83: not applicable to a span shorter than the frame). -/
  | truncated (shape : FrameShape) (got : Nat)
  deriving DecidableEq, Repr

/-- The frame at the head of a byte sequence and the bytes after it, or the reason there is none (R64, R65, R83). -/
def decode (bytes : List Byte) : Except DecodeReject (Instr × List Byte) :=
  match bytes with
  | [] => .error .noTag
  | tag :: _ =>
    match shapeOfTag tag with
    | none => .error (.unknownTag tag)
    | some sh =>
      if bytes.length < sh.len then .error (.truncated sh bytes.length)
      else .ok (decodeShape sh bytes, bytes.drop sh.len)

/-- The bytes of a frame on the wire, first byte first, the checksum field as the instruction carries it (R61, R62,
R63). -/
def encode : Instr → List Byte
  | .hdr status mc mh ms crc =>
    [Config.tagHdr, status, lowByte mc, highByte mc, mh, ms, lowByte crc, highByte crc]
  | .dat status c h s payload crc =>
    [Config.tagDat, status, lowByte c, highByte c, h, s] ++ payload ++ [lowByte crc, highByte crc]
  | .endOfTransfer => [Config.tagEnd]

/-- The first `n` bytes of the number `w`, byte 0 its least significant (the numbering of spec/opcode_table.json). -/
def bytesOfNat (n w : Nat) : List Byte := (List.range n).map fun k => BitVec.ofNat 8 (w >>> (8 * k))

/-- An instruction given as `nbits` bits of `w`, laid out to the longest frame with zeros above them. -/
def tableWordBytes (nbits w : Nat) : List Byte := bytesOfNat Config.datLen (w % 2 ^ nbits)

/-- The instruction the decoder reads from an instruction whose bits are `w`. -/
def decodeTableWord (nbits w : Nat) : Option Instr :=
  match decode (tableWordBytes nbits w) with
  | .ok (i, _) => some i
  | .error _ => none

end Sys2Proof
end

