-- ==== Sys2Proof/Machine/State.lean ====
section
/-! DEFINITION. The state: the eight registers of spec/10_state.md R10, and the environment the engine acts on (its
input channel, its reset input, the image sink and the record of its outputs), all as plain data; the reasons a step can
stop; the state after reset. -/

namespace Sys2Proof.Machine

/-- The values of the register `STATE` (R11); no code 5 to 7 can be written down (U7). -/
inductive FsmState where
  | awaitTag
  | procHeader
  | procData
  | done
  | fault
  deriving DecidableEq, Repr

/-- The values of the register `FAULT_CAUSE` (R18, R181). -/
inductive FaultCause where
  | none
  | unknownTag
  | truncated
  | channelError
  deriving DecidableEq, Repr

/-- One symbol of the input channel (R41). -/
inductive Symbol where
  | byte (b : Byte)
  | eos
  | err
  deriving DecidableEq, Repr

/-- One operation on the image sink (R45, R46). -/
inductive SinkOp where
  | write (offset : BitVec 41) (data : List Byte)
  | close
  deriving DecidableEq, Repr

/-- The fields of `EV_HEADER` (R190). -/
structure HeaderRecord where
  status : Byte
  maxCylinder : Half
  maxHead : Byte
  maxSector : Byte
  crcRx : Half
  crcCalc : Half
  crcOk : Bool
  devErr : Bool
  repeated : Bool
  deriving DecidableEq, Repr

/-- The fields of `EV_DATA`; `lba` and `offset` have no value unless `written` (R191). -/
structure DataRecord where
  status : Byte
  cylinder : Half
  head : Byte
  sector : Byte
  crcRx : Half
  crcCalc : Half
  crcOk : Bool
  devErr : Bool
  good : Bool
  orderViol : Bool
  lbaUndef : Bool
  written : Bool
  lba : Option (BitVec 32)
  offset : Option (BitVec 41)
  deriving DecidableEq, Repr

/-- One record of the event port (R56, R190 to R193). -/
inductive Event where
  | header (r : HeaderRecord)
  | data (r : DataRecord)
  | endOfTransfer (orderViol : Bool)
  | fault (cause : FaultCause) (tag : Byte) (cnt : BitVec 10)
  deriving DecidableEq, Repr

/-- One output of the engine, on either of its two output ports. -/
inductive Output where
  | sink (op : SinkOp)
  | event (e : Event)
  deriving DecidableEq, Repr

/-- Image memory: (offset, byte) pairs, offsets strictly rising; an offset not listed was never written (R44, U6). -/
abbrev Memory := List Host.Cell

/-- The frame buffer `FBUF[0..519]`: 520 bytes, no more and no fewer (R13). -/
structure FrameBuffer where
  bytes : List Byte
  size : bytes.length = Config.datLen
  deriving DecidableEq, Repr

/-- The registers of R10, in its order, then the environment. -/
structure State where
  /-- `STATE` (R11). -/
  fsm : FsmState
  /-- `CNT`, 10 bits (R12). -/
  cnt : BitVec 10
  /-- `FBUF[0..519]` (R13). -/
  fbuf : FrameBuffer
  /-- `CRC_ACC` (R15). -/
  crcAcc : Half
  /-- `HDR_SEEN` (R16). -/
  hdrSeen : Bool
  /-- `MAX_HEAD`; absent while no header was processed, as R17 asks. -/
  maxHead : Option Byte
  /-- `MAX_SECTOR`; absent while no header was processed, as R17 asks. -/
  maxSector : Option Byte
  /-- `FAULT_CAUSE` (R18). -/
  faultCause : FaultCause
  /-- Environment: the symbols the channel has delivered and the engine has not consumed, next one first (R41). -/
  chan : List Symbol
  /-- Environment: the reset input `rst` (R210). -/
  rst : Bool
  /-- Environment: the image behind the sink (R44). -/
  image : Memory
  /-- Environment: the sink is open, that is no `CLOSE` since the host opened it (R46, R187, R216). -/
  sinkOpen : Bool
  /-- Environment: every output so far, oldest first; within a step the sink operation first (R20, R52, R56). -/
  out : List Output
  deriving DecidableEq, Repr

/-- Why `step` has no next state.  No meaning of an instruction raises any of them. -/
inductive Fault where
  /-- Raised by `step` in `DONE` with `rst` low: the engine has no step there (R119).  Safe: the hardware has no step
  either. -/
  | noStepDone
  /-- Raised by `step` in `FAULT` with `rst` low: the engine has no step there (R119).  Safe: the hardware has no step
  either. -/
  | noStepFault
  /-- Raised by `step` on a byte in `PROC_HEADER` or `PROC_DATA` when `CNT` is outside `1 .. L-1`, the precondition of
  `collect` (R114).  No run reaches such a state (`Inv`).  Safe: the model stops where the spec gives no step. -/
  | collectPrecondition
  deriving DecidableEq, Repr

/-- Why an instruction has no meaning. -/
inductive Refusal where
  /-- Raised by `exec` for an instruction not modelled yet.  Safe; no arm raises it now. -/
  | notModelled (mnemonic : String)
  deriving DecidableEq, Repr

/-- The machine right after reset (R23): an empty image behind an open sink (R216), no symbol delivered yet, no output
so far (R211).  `FBUF` is unspecified by the spec and holds zeros here (log entry 2). -/
def State.reset : State where
  fsm := .awaitTag
  cnt := 0#10
  fbuf := ⟨List.replicate Config.datLen 0#8, List.length_replicate⟩
  crcAcc := Config.crcInit
  hdrSeen := false
  maxHead := none
  maxSector := none
  faultCause := .none
  chan := []
  rst := false
  image := []
  sinkOpen := true
  out := []

end Sys2Proof.Machine
end

