-- ==== Sys2Proof/Machine/Operands.lean ====
section
/-! DEFINITION. What the frame operations read: the views of the frame buffer (spec/10_state.md R14) and the geometry
registers (R17). -/

namespace Sys2Proof.Machine

/-- `FBUF[i]` (R8). -/
def State.fbufAt (s : State) (i : Nat) : Byte := byteAt s.fbuf.bytes i

/-- `TAG` (R14). -/
def State.tag (s : State) : Byte := s.fbufAt 0

/-- `FSTATUS` (R14). -/
def State.fstatus (s : State) : Byte := s.fbufAt 1

/-- `CYL` (R14). -/
def State.cyl (s : State) : Half := le16 (s.fbufAt 2) (s.fbufAt 3)

/-- `HEAD` (R14). -/
def State.head (s : State) : Byte := s.fbufAt 4

/-- `SECT` (R14). -/
def State.sect (s : State) : Byte := s.fbufAt 5

/-- `PAYLOAD`, 512 bytes (R14). -/
def State.payload (s : State) : List Byte := (s.fbuf.bytes.drop 6).take Config.sectorBytes

/-- `CRC_RX_H` (R14). -/
def State.crcRxH (s : State) : Half := le16 (s.fbufAt 6) (s.fbufAt 7)

/-- `CRC_RX_D` (R14). -/
def State.crcRxD (s : State) : Half := le16 (s.fbufAt 518) (s.fbufAt 519)

/-- The register `MAX_HEAD` as an operand: its value, or any value while it holds none (R17, U4; log entry 3). -/
def State.readMaxHead (s : State) : Byte := s.maxHead.getD Config.unsetMaxHead

/-- The register `MAX_SECTOR` as an operand: its value, or any value while it holds none (R17, U4; log entry 3). -/
def State.readMaxSector (s : State) : Byte := s.maxSector.getD Config.unsetMaxSector

/-- The instruction the frame buffer holds, read with the decoder the tag chose (R83). -/
def State.frame (s : State) (sh : FrameShape) : Instr := decodeShape sh s.fbuf.bytes

end Sys2Proof.Machine
end

