-- ==== Sys2Proof/Machine/Flags.lean ====
section
/-! DEFINITION. Every condition computed at the completion of a frame (spec/10_state.md R19, spec/60_exceptions.md
R182). -/

namespace Sys2Proof.Machine

/-- `crc_ok`: the validator compares; it does not test a residue (R95, R98). -/
def crcOk (crcRx crcCalc : Half) : Bool := crcRx == crcCalc

/-- `dev_err`: the status byte is not 0 (R141, R144). -/
def devErr (status : Byte) : Bool := status != 0#8

/-- `good = crc_ok and (status == 0)` (R144). -/
def good (crcRx crcCalc : Half) (status : Byte) : Bool := crcOk crcRx crcCalc && status == 0#8

/-- `order_viol`: no header has been processed (R144, R147). -/
def orderViol (s : State) : Bool := !s.hdrSeen

/-- `repeat`: a header was already processed (R141). -/
def repeatedHeader (s : State) : Bool := s.hdrSeen

/-- `lba_undef`: there is a geometry, and no LBA under it (R166, R191). -/
def lbaUndef (s : State) (sector : Byte) : Bool := s.hdrSeen && lbaUndefined s.readMaxSector sector

/-- `written`: there is a geometry and an LBA under it (R191). -/
def written (s : State) (sector : Byte) : Bool := s.hdrSeen && !lbaUndef s sector

end Sys2Proof.Machine
end

