-- ==== Sys2Proof/Machine/Checksum.lean ====
section
/-! DEFINITION. The checksum unit (spec/40_checksum.md): the CRC-16 update, the CRC of a byte sequence, its table form,
and the comparison that validates a frame. -/

namespace Sys2Proof.Machine

/-- One of the eight shifts of R91: bit 15 is tested, then dropped. -/
def crcShift (r : Half) : Half := if r.msb then (r <<< 1) ^^^ Config.crcPoly else r <<< 1

/-- `crc16_update(c, b)`: the byte enters at the high end, bit 7 first (R91). -/
def crc16Update (c : Half) (b : Byte) : Half :=
  crcShift (crcShift (crcShift (crcShift (crcShift (crcShift (crcShift (crcShift
    (c ^^^ (b.zeroExtend 16 <<< 8)))))))))

/-- The register after the bytes of a sequence have entered it one by one (R92). -/
def crc16From (c : Half) : List Byte → Half
  | [] => c
  | b :: bs => force (crc16Update c b) fun c' => crc16From c' bs

/-- `crc16(bytes)` (R92). -/
def crc16 (bytes : List Byte) : Half := crc16From Config.crcInit bytes

/-- The table entry `T[i]` of R93. -/
def crcTable (i : Byte) : Half := crc16Update 0#16 i

/-- The table-driven update of R93. -/
def crc16UpdateByTable (c : Half) (b : Byte) : Half := (c <<< 8) ^^^ crcTable (highByte c ^^^ b)

end Sys2Proof.Machine
end

