-- ==== Sys2Proof/Machine/Ops.lean ====
section
/-! DEFINITION. The named operations the meanings and the framing state machine share: image memory, the two output
ports, the frame buffer, the geometry registers, and fault entry (spec/00_scope.md R8, spec/20_memory.md,
spec/60_exceptions.md R186). -/

namespace Sys2Proof.Machine

/-- The canonical form of image memory: offsets strictly rising, all within the 41-bit address space (R44). -/
abbrev Memory.wf (m : Memory) : Prop :=
  m.Pairwise (fun x y => x.1 < y.1) ∧ ∀ c ∈ m, c.1 < Config.imageLimit

/-- The byte at an image offset; none where the engine never wrote (U6; log entry 4). -/
def Memory.read (m : Memory) (a : Nat) : Option Byte := m.lookup a

/-- The cells of a block that starts at offset `a` (R45). -/
def blockCells : Nat → List Byte → Memory
  | _, [] => []
  | a, b :: bs => (a, b) :: blockCells (a + 1) bs

/-- Write a block: byte `j` of `data` goes to offset `a + j`, every other offset keeps what it has (R45, R52). -/
def Memory.write (a : Nat) (data : List Byte) (m : Memory) : Memory :=
  m.filter (fun c => decide (c.1 < a)) ++ blockCells a data
    ++ m.filter (fun c => decide (a + data.length ≤ c.1))

/-- `WRITE(offset, data)`: the sink takes it in the step that issues it and cannot fail (R45, R47). -/
def State.sinkWrite (off : BitVec 41) (data : List Byte) (s : State) : State :=
  { s with
    image := Memory.write off.toNat data s.image
    out := s.out ++ [.sink (.write off data)] }

/-- `CLOSE` (R46, R47). -/
def State.sinkClose (s : State) : State :=
  { s with
    sinkOpen := false
    out := s.out ++ [.sink .close] }

/-- `emit EV_x{...}`: one record on the event port (R56). -/
def State.emit (e : Event) (s : State) : State := { s with out := s.out ++ [.event e] }

/-- `raise Fault(cause)`: the one entry into the terminal `FAULT` state (R186).  Nothing but `FAULT_CAUSE`, `STATE` and
the event port changes; there is no return from it (R189). -/
def State.raiseFault (cause : FaultCause) (s : State) : State :=
  { s with
    faultCause := cause
    fsm := .fault }.emit (.fault cause s.tag s.cnt)

/-- The store of the geometry by a header operation: `MAX_HEAD`, `MAX_SECTOR`, `HDR_SEEN` (R141). -/
def State.setGeometry (maxHead maxSector : Byte) (s : State) : State :=
  { s with
    maxHead := some maxHead
    maxSector := some maxSector
    hdrSeen := true }

/-- The buffer with byte `i` replaced. -/
def bufferSet (i : Nat) (b : Byte) (f : FrameBuffer) : FrameBuffer :=
  ⟨f.bytes.set i b, by rw [List.length_set]; exact f.size⟩

/-- The buffer with its first bytes replaced by those of a frame (bytes past the 520th have no place). -/
def bufferLoad (bytes : List Byte) (f : FrameBuffer) : FrameBuffer :=
  ⟨(bytes ++ f.bytes.drop bytes.length).take Config.datLen, by
    have h := f.size
    simp only [List.length_take, List.length_append, List.length_drop]
    omega⟩

/-- `ChanNext()`: the symbol the channel offered is consumed; `rest` is what it holds after it (R8, R41, R50). -/
def State.afterSymbol (rest : List Symbol) (s : State) : State := { s with chan := rest }

/-- `FBUF[i] <- b` (R8, R13). -/
def State.storeByte (i : Nat) (b : Byte) (s : State) : State := { s with fbuf := bufferSet i b s.fbuf }

/-- The state machine's return to waiting for a tag: `STATE <- AWAIT_TAG; CNT <- 0` (R115, R117). -/
def State.toAwaitTag (s : State) : State := { s with fsm := .awaitTag, cnt := 0#10 }

/-- The reset event: every register takes its reset value (R23, R210), the input `rst` is taken, and neither the sink,
the channel nor the outputs are touched (R211). -/
def State.applyReset (s : State) : State :=
  { State.reset with
    chan := s.chan
    image := s.image
    sinkOpen := s.sinkOpen
    out := s.out }

end Sys2Proof.Machine
end

