-- ==== Sys2Proof/Machine/Data.lean ====
section
/-! DEFINITION. The data frame's operation, `do_DAT` (spec/42_frame_ops.md R144 to R146). -/

namespace Sys2Proof.Machine

/-- The LBA of a data frame processed in state `s`; none where no geometry or no LBA exists (R144, R146). -/
def dataLba (cylinder : Half) (head sector : Byte) (s : State) : Option (BitVec 32) :=
  if written s sector then lba s.readMaxHead s.readMaxSector cylinder head sector else none

/-- The image offset a data frame is written at; none where its write is suppressed (R144, R146). -/
def dataOffset (cylinder : Half) (head sector : Byte) (s : State) : Option (BitVec 41) :=
  (dataLba cylinder head sector s).map offset

/-- The `EV_DATA` record of a data frame processed in state `s` (R191). -/
def dataRecord (status : Byte) (cylinder : Half) (head sector : Byte) (crcRx : Half) (s : State) : DataRecord where
  status := status
  cylinder := cylinder
  head := head
  sector := sector
  crcRx := crcRx
  crcCalc := s.crcAcc
  crcOk := crcOk crcRx s.crcAcc
  devErr := devErr status
  good := good crcRx s.crcAcc status
  orderViol := orderViol s
  lbaUndef := lbaUndef s sector
  written := written s sector
  lba := dataLba cylinder head sector s
  offset := dataOffset cylinder head sector s

/-- The write of a data frame's payload: at its offset, not gated by `good` (R145), and suppressed where there is no
offset (R146). -/
def writePayload (off : Option (BitVec 41)) (payload : List Byte) (s : State) : State :=
  match off with
  | some o => s.sinkWrite o payload
  | none => s

/-- `do_DAT`: no register is written (R144); the sink operation comes before the event (R52). -/
def execDat (status : Byte) (cylinder : Half) (head sector : Byte) (payload : List Byte) (crcRx : Half) (s : State) :
    Host.Outcome State Fault Refusal :=
  .next ((writePayload (dataOffset cylinder head sector s) payload s).emit
    (.data (dataRecord status cylinder head sector crcRx s)))

end Sys2Proof.Machine
end

