-- ==== Sys2Proof/Machine/Header.lean ====
section
/-! DEFINITION. The header frame's operation, `do_HDR` (spec/42_frame_ops.md R141, R142). -/

namespace Sys2Proof.Machine

/-- The `EV_HEADER` record of a header frame processed in state `s` (R190). -/
def headerRecord (status : Byte) (maxCylinder : Half) (maxHead maxSector : Byte) (crcRx : Half) (s : State) :
    HeaderRecord where
  status := status
  maxCylinder := maxCylinder
  maxHead := maxHead
  maxSector := maxSector
  crcRx := crcRx
  crcCalc := s.crcAcc
  crcOk := crcOk crcRx s.crcAcc
  devErr := devErr status
  repeated := repeatedHeader s

/-- `do_HDR`: the geometry is stored in every case, whatever the verdicts, and a later header overwrites it (R141,
R142). -/
def execHdr (status : Byte) (maxCylinder : Half) (maxHead maxSector : Byte) (crcRx : Half) (s : State) :
    Host.Outcome State Fault Refusal :=
  .next ((s.setGeometry maxHead maxSector).emit
    (.header (headerRecord status maxCylinder maxHead maxSector crcRx s)))

end Sys2Proof.Machine
end

