-- ==== Sys2Proof/Machine/Terminator.lean ====
section
/-! DEFINITION. The terminator frame's operation, `do_END` (spec/42_frame_ops.md R147). -/

namespace Sys2Proof.Machine

/-- `do_END`: it closes the sink and stops in `DONE`, before any header too (R147). -/
def execEndOfTransfer (s : State) : Host.Outcome State Fault Refusal :=
  .next { s.sinkClose.emit (.endOfTransfer (orderViol s)) with
    fsm := .done
    cnt := 0#10 }

end Sys2Proof.Machine
end

