-- ==== Sys2Proof/Machine/Dispatch.lean ====
section
/-! DEFINITION. The dispatch from an instruction to its meaning: the frame operations of spec/42_frame_ops.md. -/

namespace Sys2Proof.Machine

def exec (i : Instr) (s : State) : Host.Outcome State Fault Refusal :=
  match i with
  | .hdr st mc mh ms crc => Sys2Proof.Machine.execHdr st mc mh ms crc s
  | .dat st cy hd sc pl crc => Sys2Proof.Machine.execDat st cy hd sc pl crc s
  | .endOfTransfer => Sys2Proof.Machine.execEndOfTransfer s

end Sys2Proof.Machine
end

