-- ==== Sys2Proof/Machine/Framing.lean ====
section
/-! DEFINITION. The receiver's framing state machine (spec/41_framing_fsm.md R110 to R119): what one step does in each
state for each input symbol. -/

namespace Sys2Proof.Machine

/-- The state in which a frame's remaining bytes are collected (R11); a terminator has none. -/
def collectingState : FrameShape → FsmState
  | .header => .procHeader
  | .data => .procData
  | .terminator => .awaitTag

/-- Where control goes after a frame operation: back to `AWAIT_TAG` after a header or data frame, whatever its verdicts
(R115, R117, R183); the terminator's operation has set `DONE` itself (R147). -/
def resumeAfter : FrameShape → State → State
  | .header, s => s.toAwaitTag
  | .data, s => s.toAwaitTag
  | .terminator, s => s

/-- Run the operation of the frame the buffer holds (R112, R115, R117). -/
def runFrame (sh : FrameShape) (s : State) : Host.Outcome State Fault Refusal :=
  match exec (s.frame sh) s with
  | .next t => .next (resumeAfter sh t)
  | .fault r => .fault r
  | .refused r => .refused r

/-- The cause a symbol that is no byte raises (R113, R118). -/
def endCause : Symbol → FaultCause
  | .byte _ => .none
  | .eos => .truncated
  | .err => .channelError

/-- The tag byte is stored and starts the checksum (R112). -/
def takeTag (b : Byte) (s : State) : State :=
  { s.storeByte 0 b with
    crcAcc := crc16Update Config.crcInit b
    cnt := 1#10 }

/-- `STATE` goes to the state that collects a frame of shape `sh` (R112). -/
def State.enter (sh : FrameShape) (s : State) : State := { s with fsm := collectingState sh }

/-- `await_tag(BYTE(b))` (R112, R149). -/
def awaitTagByte (b : Byte) (s : State) : Host.Outcome State Fault Refusal :=
  match shapeOfTag b with
  | some .header => .next ((takeTag b s).enter .header)
  | some .data => .next ((takeTag b s).enter .data)
  | some .terminator => runFrame .terminator (takeTag b s)
  | none => .next ((takeTag b s).raiseFault .unknownTag)

/-- `CRC_ACC` after byte `cnt` of a frame whose first `covered` bytes are covered: the checksum field itself is not folded
in (R114, R116). -/
def crcAfter (covered cnt : Nat) (b : Byte) (c : Half) : Half := if cnt < covered then crc16Update c b else c

/-- The store of one more byte of a frame of shape `sh` (R114, R116). -/
def takeByte (sh : FrameShape) (b : Byte) (s : State) : State :=
  { s.storeByte s.cnt.toNat b with
    crcAcc := crcAfter sh.covered s.cnt.toNat b s.crcAcc
    cnt := s.cnt + 1#10 }

/-- `collect(BYTE(b), L)`, its precondition `1 <= CNT <= L-1` checked (R114 to R117). -/
def collectByte (sh : FrameShape) (b : Byte) (s : State) : Host.Outcome State Fault Refusal :=
  if 1 ≤ s.cnt.toNat ∧ s.cnt.toNat < sh.len then
    if s.cnt.toNat + 1 = sh.len then runFrame sh (takeByte sh b s) else .next (takeByte sh b s)
  else .fault .collectPrecondition

/-- What a step does with a symbol, consumed already, while awaiting a tag (R112, R113). -/
def awaitTag (sym : Symbol) (s : State) : Host.Outcome State Fault Refusal :=
  match sym with
  | .byte b => awaitTagByte b s
  | .eos => .next (s.raiseFault (endCause sym))
  | .err => .next (s.raiseFault (endCause sym))

/-- What a step does with a symbol, consumed already, inside a frame (R114 to R118). -/
def collect (sh : FrameShape) (sym : Symbol) (s : State) : Host.Outcome State Fault Refusal :=
  match sym with
  | .byte b => collectByte sh b s
  | .eos => .next (s.raiseFault (endCause sym))
  | .err => .next (s.raiseFault (endCause sym))

/-- Consume one symbol and do what the state machine's state says; wait, unchanged, while the channel offers none
(R41, R111, R123; log entry 5). -/
def consume (onSymbol : Symbol → State → Host.Outcome State Fault Refusal) (s : State) :
    Host.Outcome State Fault Refusal :=
  match s.chan with
  | [] => .next s
  | sym :: rest => onSymbol sym (s.afterSymbol rest)

/-- The step function of R111, with the reset input before it: an asserted `rst` takes precedence over a symbol (R210).
In `DONE` and `FAULT` there is no step (R119). -/
def fsmStep (s : State) : Host.Outcome State Fault Refusal :=
  if s.rst then .next s.applyReset
  else
    match s.fsm with
    | .awaitTag => consume awaitTag s
    | .procHeader => consume (collect .header) s
    | .procData => consume (collect .data) s
    | .done => .fault .noStepDone
    | .fault => .fault .noStepFault

/-- The first bytes of a frame of shape `sh` as collected so far: in `FBUF`, in `CRC_ACC` and in `CNT` (R12, R13, R15). -/
def loadFrame (sh : FrameShape) (bytes : List Byte) (s : State) : State :=
  { s with
    fbuf := bufferLoad bytes s.fbuf
    crcAcc := crc16 (bytes.take sh.covered)
    cnt := BitVec.ofNat 10 bytes.length }

/-- The engine waits for its next tag and the channel offers the byte `b` first. -/
def offerTag (b : Byte) (s : State) : State :=
  { s with
    fsm := .awaitTag
    cnt := 0#10
    rst := false
    chan := .byte b :: s.chan }

/-- The engine has collected all bytes of a frame of shape `sh` but the last, which the channel offers first. -/
def offerLast (sh : FrameShape) (bytes : List Byte) (s : State) : State :=
  { loadFrame sh (bytes.take (sh.len - 1)) s with
    fsm := collectingState sh
    rst := false
    chan := .byte (byteAt bytes (sh.len - 1)) :: s.chan }

/-- Place a frame so that the very next step completes it and runs its operation (log entry 6); an illegal tag is
offered as a tag. -/
def placeFrame (bytes : List Byte) (s : State) : State :=
  match shapeOfTag (byteAt bytes 0) with
  | some .header => offerLast .header bytes s
  | some .data => offerLast .data bytes s
  | some .terminator => offerTag (byteAt bytes 0) s
  | none => offerTag (byteAt bytes 0) s

end Sys2Proof.Machine
end

