-- ==== Sys2Proof/Machine/Step.lean ====
section
/-! DEFINITION. The machine's step and the host's way to place an instruction where it is fetched. -/

namespace Sys2Proof.Machine

/-- One step of the machine: one symbol, or the reset (spec/41_framing_fsm.md R110, R111). -/
def step (s : State) : Host.Outcome State Fault Refusal := fsmStep s

/-- `s` with the instruction whose bits are `w` placed so that the very next step runs it (log entry 6). -/
def State.withFetchWord (s : State) (nbits w : Nat) : State := placeFrame (tableWordBytes nbits w) s

end Sys2Proof.Machine
end

