-- ==== Sys2Proof/Machine/Codec.lean ====
section
/-! DEFINITION. The codec's pure functions and the well-formed stream (spec/30_encoding.md R76 to R81, R83): what a sender
puts on the wire.  They are specification functions: the engine has no encoder (spec/00_scope.md R3). -/

namespace Sys2Proof.Machine

/-- The checksum a sender places in a frame (R94): the CRC of the bytes before the checksum field. -/
def checksumOf (i : Instr) : Half := crc16 ((encode i).take ((encode i).length - 2))

/-- `encode_header` as a frame: its checksum is the right one (R76). -/
def sentHeader (status : Byte) (maxCylinder : Half) (maxHead maxSector : Byte) : Instr :=
  .hdr status maxCylinder maxHead maxSector (checksumOf (.hdr status maxCylinder maxHead maxSector 0#16))

/-- `encode_data` as a frame: its checksum is the right one, for every status (R77, R94). -/
def sentData (status : Byte) (cylinder : Half) (head sector : Byte) (payload : List Byte) : Instr :=
  .dat status cylinder head sector payload (checksumOf (.dat status cylinder head sector payload 0#16))

/-- `encode_header(status, max_cylinder, max_head, max_sector)` (R76). -/
def encodeHeader (status : Byte) (maxCylinder : Half) (maxHead maxSector : Byte) : List Byte :=
  encode (sentHeader status maxCylinder maxHead maxSector)

/-- `encode_data(status, cylinder, head, sector, payload)` (R77). -/
def encodeData (status : Byte) (cylinder : Half) (head sector : Byte) (payload : List Byte) : List Byte :=
  encode (sentData status cylinder head sector payload)

/-- `encode_terminator()` (R78). -/
def encodeTerminator : List Byte := encode .endOfTransfer

/-- What `decode_header` and `decode_data` return: the fields together with the verdict (R83, spec/90_conflicts.md C6). -/
structure Verdict where
  fields : Instr
  crcCalc : Half
  crcOk : Bool
  deriving DecidableEq, Repr

/-- `decode_header(b[0..7])` (R83). -/
def decodeHeaderVerdict (b : List Byte) : Verdict where
  fields := decodeHeader b
  crcCalc := crc16 (b.take FrameShape.header.covered)
  crcOk := crcOk (le16 (byteAt b 6) (byteAt b 7)) (crc16 (b.take FrameShape.header.covered))

/-- `decode_data(b[0..519])` (R83). -/
def decodeDataVerdict (b : List Byte) : Verdict where
  fields := decodeData b
  crcCalc := crc16 (b.take FrameShape.data.covered)
  crcOk := crcOk (le16 (byteAt b 518) (byteAt b 519)) (crc16 (b.take FrameShape.data.covered))

/-- The geometry a header carries. -/
structure Geometry where
  maxCylinder : Half
  maxHead : Byte
  maxSector : Byte
  deriving DecidableEq, Repr

/-- The triples of a geometry in the sender's order: cylinder outermost, sector innermost and counted from 1 (R80). -/
def enumeration (g : Geometry) : List (Half × Byte × Byte) :=
  (List.range (g.maxCylinder.toNat + 1)).flatMap fun c =>
    (List.range (g.maxHead.toNat + 1)).flatMap fun h =>
      (List.range g.maxSector.toNat).map fun s =>
        (BitVec.ofNat 16 c, BitVec.ofNat 8 h, BitVec.ofNat 8 (s + 1))

/-- A well-formed stream as frames: one header, then a data frame for each triple, then one terminator (R80).  `read` is
the sender's sector read: status and payload. -/
def transferFrames (geomStatus : Byte) (g : Geometry) (read : Half → Byte → Byte → Byte × List Byte) : List Instr :=
  [sentHeader geomStatus g.maxCylinder g.maxHead g.maxSector]
    ++ (enumeration g).map (fun t => sentData (read t.1 t.2.1 t.2.2).1 t.1 t.2.1 t.2.2 (read t.1 t.2.1 t.2.2).2)
    ++ [.endOfTransfer]

/-- `TRANSFER gs, mc, mh, ms, read`: the well-formed stream in bytes (R80, R81). -/
def transferBytes (geomStatus : Byte) (g : Geometry) (read : Half → Byte → Byte → Byte × List Byte) : List Byte :=
  (transferFrames geomStatus g read).flatMap encode

/-- One item of the textual form of a stream (R81). -/
inductive StreamItem where
  /-- `HDR st, mc, mh, ms`. -/
  | hdr (st : Byte) (mc : Half) (mh ms : Byte)
  /-- `DAT st, c, h, s, p`. -/
  | dat (st : Byte) (c : Half) (h s : Byte) (p : List Byte)
  /-- `HDR st, mc, mh, ms !crc=XXXX`. -/
  | hdrCrc (st : Byte) (mc : Half) (mh ms : Byte) (crc : Half)
  /-- `DAT st, c, h, s, p !crc=XXXX`. -/
  | datCrc (st : Byte) (c : Half) (h s : Byte) (p : List Byte) (crc : Half)
  /-- `END`. -/
  | endOfTransfer
  /-- `RAW xx xx ...`. -/
  | raw (bs : List Byte)
  /-- `EOS`. -/
  | eos
  /-- `ERR`. -/
  | err
  deriving DecidableEq, Repr

/-- `fill(v)` (R81). -/
def fill (v : Byte) : List Byte := List.replicate Config.sectorBytes v

/-- `seq(v)` (R81). -/
def seqFrom (v : Byte) : List Byte := (List.range Config.sectorBytes).map fun j => v + BitVec.ofNat 8 j

/-- The channel symbols an item stands for (R81). -/
def StreamItem.symbols : StreamItem → List Symbol
  | .hdr st mc mh ms => (encodeHeader st mc mh ms).map .byte
  | .dat st c h s p => (encodeData st c h s p).map .byte
  | .hdrCrc st mc mh ms crc => (encode (.hdr st mc mh ms crc)).map .byte
  | .datCrc st c h s p crc => (encode (.dat st c h s p crc)).map .byte
  | .endOfTransfer => encodeTerminator.map .byte
  | .raw bs => bs.map .byte
  | .eos => [.eos]
  | .err => [.err]

/-- The channel symbols of a stream in textual form (R81). -/
def streamSymbols (items : List StreamItem) : List Symbol := items.flatMap StreamItem.symbols

end Sys2Proof.Machine
end

