-- ==== Sys2Proof/Machine/FrameLoop.lean ====
section
/-! DEFINITION. The frame-level reading of the receiver (spec/41_framing_fsm.md R121): one turn of the blocking-read loop,
a whole frame at a time.  It is a second description of the machine that `step` gives byte by byte. -/

namespace Sys2Proof.Machine

/-- What `recv_exact(n)` returns (R41). -/
inductive Received where
  /-- `n` bytes, and the symbols after them. -/
  | bytes (bs : List Byte) (rest : List Symbol)
  /-- `EOS` or `ERR` came first: the bytes before it, the symbol itself, and the symbols after it. -/
  | stopped (bs : List Byte) (sym : Symbol) (rest : List Symbol)
  /-- The channel has not delivered enough yet: the read blocks. -/
  | waiting
  deriving DecidableEq, Repr

/-- A byte received before the rest of a read. -/
def Received.cons (b : Byte) : Received → Received
  | .bytes bs rest => .bytes (b :: bs) rest
  | .stopped bs sym rest => .stopped (b :: bs) sym rest
  | .waiting => .waiting

/-- `recv_exact(n)`: `n` successive reads that each return a byte (R41). -/
def recvExact : Nat → List Symbol → Received
  | 0, chan => .bytes [] chan
  | _ + 1, [] => .waiting
  | n + 1, .byte b :: chan => (recvExact n chan).cons b
  | _ + 1, .eos :: chan => .stopped [] .eos chan
  | _ + 1, .err :: chan => .stopped [] .err chan

/-- The frame of shape `sh` whose tag is `tag`, read and run: how many symbols it takes and what comes of it; none while
the read blocks (R121). -/
def frameTurnShape (sh : FrameShape) (tag : Byte) (chan : List Symbol) (s : State) :
    Option (Nat × Host.Outcome State Fault Refusal) :=
  match recvExact (sh.len - 1) chan with
  | .bytes bs rest => some (sh.len, runFrame sh (loadFrame sh (tag :: bs) (s.afterSymbol rest)))
  | .stopped bs sym rest =>
    some (bs.length + 2, .next ((loadFrame sh (tag :: bs) (s.afterSymbol rest)).raiseFault (endCause sym)))
  | .waiting => none

/-- One turn of the loop of R121, taken in `AWAIT_TAG`: how many symbols it consumes and the state it ends in; none while
a read blocks. -/
def frameTurn (s : State) : Option (Nat × Host.Outcome State Fault Refusal) :=
  match s.chan with
  | [] => none
  | .eos :: rest => some (1, .next ((s.afterSymbol rest).raiseFault .truncated))
  | .err :: rest => some (1, .next ((s.afterSymbol rest).raiseFault .channelError))
  | .byte tag :: rest =>
    match shapeOfTag tag with
    | some sh => frameTurnShape sh tag rest s
    | none => some (1, .next ((loadFrame .terminator [tag] (s.afterSymbol rest)).raiseFault .unknownTag))

end Sys2Proof.Machine
end

