-- ==== Sys2Proof/Machine/HostPort.lean ====
section
/-! DEFINITION. What the host can do to the machine and what it can read of it (spec/20_memory.md R42, R57,
spec/10_state.md R22). -/

namespace Sys2Proof.Machine

/-- The host asserts the reset input; the next step takes it (R57, R210). -/
def State.assertReset (s : State) : State := { s with rst := true }

/-- The channel delivers more symbols, each once and in order (R41, R57). -/
def State.deliver (syms : List Symbol) (s : State) : State := { s with chan := s.chan ++ syms }

/-- The host provides an open sink with an image behind it (R216). -/
def State.openSink (image : Memory) (s : State) : State := { s with image := image, sinkOpen := true }

/-- `in_ready`: the engine accepts a symbol (R42). -/
def State.inReady (s : State) : Bool :=
  match s.fsm with
  | .awaitTag => true
  | .procHeader => true
  | .procData => true
  | .done => false
  | .fault => false

/-- The 3-bit code of `STATE` (R11). -/
def FsmState.code : FsmState → BitVec 3
  | .awaitTag => 0#3
  | .procHeader => 1#3
  | .procData => 2#3
  | .done => 3#3
  | .fault => 4#3

/-- The 3-bit code of `FAULT_CAUSE` (R181). -/
def FaultCause.code : FaultCause → BitVec 3
  | .none => 0#3
  | .unknownTag => 1#3
  | .truncated => 2#3
  | .channelError => 3#3

/-- The status signals of R22. -/
structure Status where
  state : BitVec 3
  cnt : BitVec 10
  hdrSeen : Bool
  faultCause : BitVec 3
  tag : Byte
  maxHead : Option Byte
  maxSector : Option Byte
  deriving DecidableEq, Repr

/-- What the host reads; the geometry signals have a value only when `HDR_SEEN = 1` (R22). -/
def State.status (s : State) : Status where
  state := s.fsm.code
  cnt := s.cnt
  hdrSeen := s.hdrSeen
  faultCause := s.faultCause.code
  tag := s.tag
  maxHead := if s.hdrSeen then s.maxHead else none
  maxSector := if s.hdrSeen then s.maxSector else none

end Sys2Proof.Machine
end

