-- ==== Sys2Proof/Safety.lean ====
section
/-! DEFINITION. What the claims speak of: the invariant of the reachable states (spec/10_state.md R24), the end of a run
(spec/41_framing_fsm.md R124), the registers alone (R10), and the writes of a run as seen from its outputs. -/

namespace Sys2Proof.Machine

/-- R24 (a), R12: `CNT` is in the range its state allows. -/
def cntLegal (s : State) : Prop :=
  match s.fsm with
  | .awaitTag => s.cnt.toNat = 0
  | .procHeader => 1 ≤ s.cnt.toNat ∧ s.cnt.toNat ≤ 7
  | .procData => 1 ≤ s.cnt.toNat ∧ s.cnt.toNat ≤ 519
  | .done => s.cnt.toNat = 0
  | .fault => s.cnt.toNat ≤ 519

/-- R24 (c): the tag of the frame being collected is the one its state stands for. -/
def tagLegal (s : State) : Prop :=
  match s.fsm with
  | .procHeader => s.tag = Config.tagHdr
  | .procData => s.tag = Config.tagDat
  | .awaitTag => True
  | .done => True
  | .fault => True

/-- R24 (d), R15: `CRC_ACC` is the checksum of the covered bytes collected so far. -/
def crcLegal (s : State) : Prop :=
  match s.fsm with
  | .procHeader => s.crcAcc = crc16 (s.fbuf.bytes.take (min s.cnt.toNat (Config.hdrLen - 2)))
  | .procData => s.crcAcc = crc16 (s.fbuf.bytes.take (min s.cnt.toNat (Config.datLen - 2)))
  | .awaitTag => True
  | .done => True
  | .fault => True

/-- The invariant of the reachable states: R24 (a) to (d); the geometry registers hold a value exactly when `HDR_SEEN` is
1 (R17); the image is in canonical form. -/
structure Inv (s : State) : Prop where
  cnt : cntLegal s
  cause : s.faultCause ≠ .none ↔ s.fsm = .fault
  tag : tagLegal s
  crc : crcLegal s
  maxHead : s.maxHead.isSome = s.hdrSeen
  maxSector : s.maxSector.isSome = s.hdrSeen
  image : Memory.wf s.image

/-- `n` steps, stopping at the first that has no next state; `Host.Core.run` of the machine (`core_run_eq`). -/
def runSteps : Nat → State → Host.Outcome State Fault Refusal
  | 0, s => .next s
  | n + 1, s =>
    match step s with
    | .next t => runSteps n t
    | .fault r => .fault r
    | .refused r => .refused r

/-- The run has ended (R124). -/
def State.ended (s : State) : Bool := s.fsm == .done || s.fsm == .fault

/-- The run has ended successfully (R124). -/
def State.successful (s : State) : Bool := s.fsm == .done

/-- The registers of R10 and nothing else. -/
structure Registers where
  fsm : FsmState
  cnt : BitVec 10
  fbuf : FrameBuffer
  crcAcc : Half
  hdrSeen : Bool
  maxHead : Option Byte
  maxSector : Option Byte
  faultCause : FaultCause
  deriving DecidableEq, Repr

/-- The registers of a state. -/
def State.registers (s : State) : Registers where
  fsm := s.fsm
  cnt := s.cnt
  fbuf := s.fbuf
  crcAcc := s.crcAcc
  hdrSeen := s.hdrSeen
  maxHead := s.maxHead
  maxSector := s.maxSector
  faultCause := s.faultCause

/-- The effect of one output on the image (R45, R56). -/
def applyOutput (m : Memory) : Output → Memory
  | .sink (.write off data) => Memory.write off.toNat data m
  | .sink .close => m
  | .event _ => m

/-- The effect of a sequence of outputs on the image, in issue order (R52). -/
def applyOutputs (m : Memory) (outs : List Output) : Memory := outs.foldl applyOutput m

/-- The control part of the transition table of R120: `STATE` and `CNT` after a step that consumes `sym` in a
non-terminal state. -/
def controlAfter (fsm : FsmState) (cnt : Nat) (sym : Symbol) : FsmState × Nat :=
  match fsm, sym with
  | .awaitTag, .byte b =>
    if b = 0x00#8 then (.procHeader, 1)
    else if b = 0x01#8 then (.procData, 1)
    else if b = 0xFF#8 then (.done, 0)
    else (.fault, 1)
  | .awaitTag, _ => (.fault, 0)
  | .procHeader, .byte _ => if cnt = 7 then (.awaitTag, 0) else (.procHeader, cnt + 1)
  | .procHeader, _ => (.fault, cnt)
  | .procData, .byte _ => if cnt = 519 then (.awaitTag, 0) else (.procData, cnt + 1)
  | .procData, _ => (.fault, cnt)
  | .done, _ => (.done, cnt)
  | .fault, _ => (.fault, cnt)

/-- A byte sequence with bit `j` of byte `k` flipped (R97). -/
def flipBit (bytes : List Byte) (k j : Nat) : List Byte := bytes.set k (byteAt bytes k ^^^ (1#8 <<< j))

end Sys2Proof.Machine
end

