-- ==== Sys2Proof/Certificates/Slice0/Obligations.lean ====
section
/-! DEFINITION. The statements for the provers, each over the model's own definitions; every docstring names the rules of
spec/ it rests on. -/

open Sys2Proof Sys2Proof.Machine

/-! ## Encoding -/

/-- R61, R62, R63, R83: decoding what was encoded gives the frame back, every field at every value, and leaves the bytes
after it. -/
def Obligations.DecodeReadsBackEveryEncodedFrame : Prop :=
  ∀ (i : Instr) (rest : List Byte), i.wf = true → decode (encode i ++ rest) = .ok (i, rest)

/-- R61, R62, R63, R83: the other direction: the decoder drops no bit of a frame. -/
def Obligations.EncodeWritesBackEveryDecodedFrame : Prop :=
  ∀ (bytes : List Byte) (i : Instr) (rest : List Byte),
    decode bytes = .ok (i, rest) → i.wf = true ∧ encode i ++ rest = bytes

/-- R64, R65, R68: the three legal tags and their lengths; exactly 0x02 to 0xFE are rejected, by name. -/
def Obligations.TagMapAndIllegalTags : Prop :=
  frameLen 0x00#8 = some 8 ∧ frameLen 0x01#8 = some 520 ∧ frameLen 0xFF#8 = some 1 ∧
  ∀ (tag : Byte) (rest : List Byte),
    (decode (tag :: rest) = .error (.unknownTag tag) ↔ 2 ≤ tag.toNat ∧ tag.toNat ≤ 0xFE) ∧
    (frameLen tag = none ↔ 2 ≤ tag.toNat ∧ tag.toNat ≤ 0xFE)

/-- R61, R62, R63: one frame of each shape, its bytes written out from the layout tables. -/
def Obligations.FramesWrittenOutFromTheLayoutTablesDecode : Prop :=
  decode [0x00#8, 0x01#8, 0x34#8, 0x12#8, 0x56#8, 0x78#8, 0xCC#8, 0x3A#8]
    = .ok (.hdr 0x01#8 0x1234#16 0x56#8 0x78#8 0x3ACC#16, []) ∧
  decode ([0x01#8, 0x80#8, 0xFF#8, 0x03#8, 0x0A#8, 0x0B#8] ++ List.replicate 512 0xEE#8 ++ [0x86#8, 0x93#8])
    = .ok (.dat 0x80#8 0x03FF#16 0x0A#8 0x0B#8 (List.replicate 512 0xEE#8) 0x9386#16, []) ∧
  decode [0xFF#8, 0x01#8] = .ok (.endOfTransfer, [0x01#8])

/-- Round trip of the codec: a sent frame decodes to its fields with a good checksum.  Rests on R66, R76, R77, R83; R79
says it and marks it "derived: from rules R66, R76, R77, R83". -/
def Obligations.SentFramesDecodeToTheirFieldsWithGoodChecksum : Prop :=
  (∀ (st : Byte) (c : Half) (h n : Byte),
    (decodeHeaderVerdict (encodeHeader st c h n)).crcOk = true ∧
    ∃ crc, (decodeHeaderVerdict (encodeHeader st c h n)).fields = .hdr st c h n crc) ∧
  (∀ (st : Byte) (c : Half) (h n : Byte) (p : List Byte), p.length = 512 →
    (decodeDataVerdict (encodeData st c h n p)).crcOk = true ∧
    ∃ crc, (decodeDataVerdict (encodeData st c h n p)).fields = .dat st c h n p crc)

/-- R66: little-endian assembly of a 16-bit field, and its inverse. -/
def Obligations.Le16AssemblesLittleEndian : Prop :=
  (∀ lo hi : Byte, (le16 lo hi).toNat = lo.toNat + 256 * hi.toNat ∧
    lowByte (le16 lo hi) = lo ∧ highByte (le16 lo hi) = hi) ∧
  ∀ v : Half, le16 (lowByte v) (highByte v) = v

/-! ## Checksum -/

/-- R92: the CRC of the empty sequence, the CRC of a sequence one byte longer, and the check value. -/
def Obligations.ChecksumGrowsByteByByte : Prop :=
  crc16 [] = 0x0000#16 ∧
  (∀ (x : List Byte) (b : Byte), crc16 (x ++ [b]) = crc16Update (crc16 x) b) ∧
  crc16 [0x31#8, 0x32#8, 0x33#8, 0x34#8, 0x35#8, 0x36#8, 0x37#8, 0x38#8, 0x39#8] = 0x31C3#16

/-- The table-driven form and the printed table entries.  Rests on R91; R93 says it and marks it "derived: from rule
R91". -/
def Obligations.TableFormEqualsTheBitwiseUpdate : Prop :=
  (∀ (c : Half) (b : Byte),
    crc16Update c b = (c <<< 8) ^^^ crcTable ((c >>> 8).setWidth 8 ^^^ b) ∧
    crc16UpdateByTable c b = crc16Update c b) ∧
  ((List.range 16).map fun i => crcTable (BitVec.ofNat 8 i)) =
    [0x0000#16, 0x1021#16, 0x2042#16, 0x3063#16, 0x4084#16, 0x50A5#16, 0x60C6#16, 0x70E7#16,
     0x8108#16, 0x9129#16, 0xA14A#16, 0xB16B#16, 0xC18C#16, 0xD1AD#16, 0xE1CE#16, 0xF1EF#16] ∧
  crcTable 0x80#8 = 0x9188#16 ∧ crcTable 0xFF#8 = 0x1EF0#16

/-- The checksum is linear over GF(2), and zero bytes at the front of a message do not change it. Rests on R91, R92;
R96 says it and marks it "derived: from rules R91, R92". -/
def Obligations.ChecksumIsLinear : Prop :=
  (∀ x y : List Byte, x.length = y.length →
    crc16 (List.zipWith (fun a b => a ^^^ b) x y) = crc16 x ^^^ crc16 y) ∧
  (∀ n : Nat, crc16 (List.replicate n 0x00#8) = 0x0000#16) ∧
  ∀ (n : Nat) (x : List Byte), crc16 (List.replicate n 0x00#8 ++ x) = crc16 x

/-- One flipped bit, in the covered bytes or in the checksum field, is always detected; several can cancel. Rests on
R91, R92, R95; R97 says it and marks it "derived: from rule R96". -/
def Obligations.AnySingleFlippedBitIsDetected : Prop :=
  (∀ (bytes : List Byte) (k j : Nat), k < bytes.length → j < 8 → crc16 (flipBit bytes k j) ≠ crc16 bytes) ∧
  (∀ (bytes : List Byte) (k j : Nat), bytes.length = 8 → k < 8 → j < 8 →
    (decodeHeaderVerdict bytes).crcOk = true → (decodeHeaderVerdict (flipBit bytes k j)).crcOk = false) ∧
  (∀ (bytes : List Byte) (k j : Nat), bytes.length = 520 → k < 520 → j < 8 →
    (decodeDataVerdict bytes).crcOk = true → (decodeDataVerdict (flipBit bytes k j)).crcOk = false) ∧
  ∃ x y : List Byte, x.length = 8 ∧ y.length = 8 ∧ x ≠ y ∧ x.drop 6 = y.drop 6 ∧
    (decodeHeaderVerdict x).crcOk = true ∧ (decodeHeaderVerdict y).crcOk = true

/-! ## The geometry-to-offset mapper -/

/-- R160, R162: the formula over the mathematical integers, and the offset. -/
def Obligations.LbaAndOffsetAreExact : Prop :=
  ∀ (mh ms : Byte) (cy : Half) (hd sc : Byte), ms ≠ 0#8 → sc ≠ 0#8 →
    ∃ l, lba mh ms cy hd sc = some l ∧
      l.toNat = (cy.toNat * (mh.toNat + 1) + hd.toNat) * ms.toNat + (sc.toNat - 1) ∧
      (offset l).toNat = 512 * l.toNat

/-- No LBA and no written byte leaves its width.  Rests on R160, R162; R163 and R164 say it and are marked "derived". -/
def Obligations.LbaAndOffsetStayWithinTheirWidths : Prop :=
  (∀ (mh ms : Byte) (cy : Half) (hd sc : Byte) (l : BitVec 32), lba mh ms cy hd sc = some l →
    l.toNat ≤ 0xFEFFFFFF ∧ (offset l).toNat ≤ 0x1FDFFFFFE00 ∧ (offset l).toNat + 511 ≤ 0x1FDFFFFFFFF) ∧
  ∃ (mh ms : Byte) (cy : Half) (hd sc : Byte), lba mh ms cy hd sc = some 0xFEFFFFFF#32

/-- R166: the LBA has no value exactly when `max_sector` or `sector` is 0. -/
def Obligations.LbaHasNoValueExactlyWhereUndefined : Prop :=
  ∀ (mh ms : Byte) (cy : Half) (hd sc : Byte), lba mh ms cy hd sc = none ↔ ms = 0#8 ∨ sc = 0#8

/-- On a geometry's triples the mapper is one-to-one onto the first blocks, in the sender's order: the `k`-th triple
has LBA `k`; it is strictly increasing in lexicographic order; and the inverse is as given. Rests on R160, R80; R167
says it and marks it "derived: from rule R160 and 30_encoding.md rule R80". -/
def Obligations.MapperIsABijectionInTheSendersOrder : Prop :=
  (∀ g : Geometry, (enumeration g).map (fun t => lbaNat g.maxHead g.maxSector t.1 t.2.1 t.2.2) =
    List.range ((g.maxCylinder.toNat + 1) * (g.maxHead.toNat + 1) * g.maxSector.toNat)) ∧
  (∀ (mh ms : Byte) (c c' : Half) (h h' s s' : Byte), h.toNat ≤ mh.toNat → h'.toNat ≤ mh.toNat →
    1 ≤ s.toNat → s.toNat ≤ ms.toNat → 1 ≤ s'.toNat → s'.toNat ≤ ms.toNat →
    (c.toNat < c'.toNat ∨ c = c' ∧ (h.toNat < h'.toNat ∨ h = h' ∧ s.toNat < s'.toNat)) →
    lbaNat mh ms c h s < lbaNat mh ms c' h' s') ∧
  ∀ (mh ms : Byte) (c : Half) (h s : Byte), h.toNat ≤ mh.toNat → 1 ≤ s.toNat → s.toNat ≤ ms.toNat →
    chsOfBlock (mh.toNat + 1) ms.toNat (lbaNat mh ms c h s) = (c.toNat, h.toNat, s.toNat)

/-! ## The frame operations -/

/-- R141, R190: a header frame always completes: it stores the geometry whatever its verdicts and reports them. -/
def Obligations.HeaderOperationStoresTheGeometryAndReports : Prop :=
  ∀ (st : Byte) (mc : Half) (mh ms : Byte) (crc : Half) (s : State),
    ∃ t, exec (.hdr st mc mh ms crc) s = .next t ∧
      t.maxHead = some mh ∧ t.maxSector = some ms ∧ t.hdrSeen = true ∧
      t.out = s.out ++ [.event (.header
        { status := st, maxCylinder := mc, maxHead := mh, maxSector := ms, crcRx := crc, crcCalc := s.crcAcc,
          crcOk := crc == s.crcAcc, devErr := st != 0#8, repeated := s.hdrSeen })]

/-- R140, R141: what a header operation leaves unchanged: every register but `HDR_SEEN`, `MAX_HEAD`, `MAX_SECTOR`, every
byte of the image, and the environment but for its one event record. -/
def Obligations.HeaderOperationFrame : Prop :=
  ∀ (st : Byte) (mc : Half) (mh ms : Byte) (crc : Half) (s t : State),
    exec (.hdr st mc mh ms crc) s = .next t →
      t.fsm = s.fsm ∧ t.cnt = s.cnt ∧ t.fbuf = s.fbuf ∧ t.crcAcc = s.crcAcc ∧ t.faultCause = s.faultCause ∧
      t.chan = s.chan ∧ t.rst = s.rst ∧ t.sinkOpen = s.sinkOpen ∧
      (∀ a, Memory.read t.image a = Memory.read s.image a) ∧ ∃ r, t.out = s.out ++ [.event (.header r)]

/-- R142: a later header is processed as the first: it replaces the geometry, data frames after it are mapped with the
new values, what was written stays where it is, and its event says `repeat`. -/
def Obligations.LaterHeaderReplacesTheGeometry : Prop :=
  ∀ (st st' : Byte) (mc mc' : Half) (mh mh' ms ms' : Byte) (crc crc' : Half) (s : State),
    ∃ t u r r', exec (.hdr st mc mh ms crc) s = .next t ∧ exec (.hdr st' mc' mh' ms' crc') t = .next u ∧
      u.maxHead = some mh' ∧ u.maxSector = some ms' ∧ u.hdrSeen = true ∧ u.image = s.image ∧
      u.out = s.out ++ [.event (.header r), .event (.header r')] ∧ r'.repeated = true ∧
      ∀ (cy : Half) (hd sc : Byte), dataLba cy hd sc u = lba mh' ms' cy hd sc

/-- R144, R145: with a geometry and an LBA, a data frame's payload is written at `512 * LBA`, byte for byte, whatever
its checksum and status, and the event reports the verdicts; the sink operation stands before the event. -/
def Obligations.DataOperationWritesItsBlock : Prop :=
  ∀ (st : Byte) (cy : Half) (hd sc : Byte) (pl : List Byte) (crc : Half) (s : State) (mh ms : Byte),
    pl.length = 512 → s.hdrSeen = true → s.maxHead = some mh → s.maxSector = some ms → ms ≠ 0#8 → sc ≠ 0#8 →
    ∃ t l, exec (.dat st cy hd sc pl crc) s = .next t ∧ lba mh ms cy hd sc = some l ∧
      (∀ j, j < 512 → Memory.read t.image (512 * l.toNat + j) = pl[j]?) ∧
      t.out = s.out ++ [.sink (.write (offset l) pl), .event (.data
        { status := st, cylinder := cy, head := hd, sector := sc, crcRx := crc, crcCalc := s.crcAcc,
          crcOk := crc == s.crcAcc, devErr := st != 0#8, good := crc == s.crcAcc && st == 0#8,
          orderViol := false, lbaUndef := false, written := true, lba := some l, offset := some (offset l) })]

/-- R144, R146 (a): a data frame before any header completes, is judged and reported, and writes nothing. -/
def Obligations.DataBeforeAnyHeaderIsReportedAndDropped : Prop :=
  ∀ (st : Byte) (cy : Half) (hd sc : Byte) (pl : List Byte) (crc : Half) (s : State), s.hdrSeen = false →
    ∃ t, exec (.dat st cy hd sc pl crc) s = .next t ∧ t.registers = s.registers ∧ t.image = s.image ∧
      t.out = s.out ++ [.event (.data
        { status := st, cylinder := cy, head := hd, sector := sc, crcRx := crc, crcCalc := s.crcAcc,
          crcOk := crc == s.crcAcc, devErr := st != 0#8, good := crc == s.crcAcc && st == 0#8,
          orderViol := true, lbaUndef := false, written := false, lba := none, offset := none })]

/-- R144, R146 (b), R166: a data frame whose LBA is undefined completes, is judged and reported, and writes nothing. -/
def Obligations.DataWithoutAnLbaIsReportedAndDropped : Prop :=
  ∀ (st : Byte) (cy : Half) (hd sc : Byte) (pl : List Byte) (crc : Half) (s : State) (ms : Byte),
    s.hdrSeen = true → s.maxSector = some ms → (ms = 0#8 ∨ sc = 0#8) →
    ∃ t, exec (.dat st cy hd sc pl crc) s = .next t ∧ t.registers = s.registers ∧ t.image = s.image ∧
      t.out = s.out ++ [.event (.data
        { status := st, cylinder := cy, head := hd, sector := sc, crcRx := crc, crcCalc := s.crcAcc,
          crcOk := crc == s.crcAcc, devErr := st != 0#8, good := crc == s.crcAcc && st == 0#8,
          orderViol := false, lbaUndef := true, written := false, lba := none, offset := none })]

/-- R140, R144: a data operation changes no register, and no byte of the image outside the 512 bytes at the offset
`dataOffset` gives; where it gives none, no byte at all. -/
def Obligations.DataOperationFrame : Prop :=
  ∀ (st : Byte) (cy : Half) (hd sc : Byte) (pl : List Byte) (crc : Half) (s t : State), pl.length = 512 →
    exec (.dat st cy hd sc pl crc) s = .next t →
      t.registers = s.registers ∧ t.chan = s.chan ∧ t.rst = s.rst ∧ t.sinkOpen = s.sinkOpen ∧
      ∀ a : Nat, (∀ o, dataOffset cy hd sc s = some o → ¬(o.toNat ≤ a ∧ a < o.toNat + 512)) →
        Memory.read t.image a = Memory.read s.image a

/-- R147, R192: the terminator always completes: it closes the sink, reports whether a header was missing, stops in
`DONE` with `CNT = 0`, and changes nothing else. -/
def Obligations.TerminatorClosesTheSinkAndStops : Prop :=
  ∀ s : State, ∃ t, exec .endOfTransfer s = .next t ∧ t.fsm = .done ∧ t.cnt = 0#10 ∧ t.sinkOpen = false ∧
    t.out = s.out ++ [.sink .close, .event (.endOfTransfer (!s.hdrSeen))] ∧
    t.fbuf = s.fbuf ∧ t.crcAcc = s.crcAcc ∧ t.hdrSeen = s.hdrSeen ∧ t.maxHead = s.maxHead ∧
    t.maxSector = s.maxSector ∧ t.faultCause = s.faultCause ∧ t.chan = s.chan ∧ t.rst = s.rst ∧
    ∀ a, Memory.read t.image a = Memory.read s.image a

/-! ## The step function -/

/-- R111, R115, R117: a step that brings a frame to its full length runs the frame the buffer then decodes to, and
returns to `AWAIT_TAG`; a tag that is a whole frame runs at once. -/
def Obligations.StepRunsTheDecodedFrame : Prop :=
  (∀ (s : State) (sh : FrameShape) (b : Byte) (rest : List Symbol) (i : Instr), s.rst = false →
    (s.fsm = .procHeader ∧ sh = .header ∨ s.fsm = .procData ∧ sh = .data) →
    s.chan = .byte b :: rest → s.cnt.toNat + 1 = sh.len →
    decode ((takeByte sh b (s.afterSymbol rest)).fbuf.bytes.take sh.len) = .ok (i, []) →
    ∃ t, exec i (takeByte sh b (s.afterSymbol rest)) = .next t ∧
      step s = .next { t with fsm := .awaitTag, cnt := 0#10 }) ∧
  (∀ (s : State) (b : Byte) (rest : List Symbol) (i : Instr) (more : List Byte), s.rst = false →
    s.fsm = .awaitTag → s.chan = .byte b :: rest → decode [b] = .ok (i, more) →
    step s = exec i (takeTag b (s.afterSymbol rest)))

/-- R112: what a byte does while the engine awaits a tag, whatever `HDR_SEEN` is. -/
def Obligations.TagByteIsDispatched : Prop :=
  ∀ (s u : State) (b : Byte) (rest : List Symbol), s.rst = false → s.fsm = .awaitTag → s.chan = .byte b :: rest →
    u = { s with chan := rest, fbuf := bufferSet 0 b s.fbuf, crcAcc := crc16Update 0x0000#16 b, cnt := 1#10 } →
    (b = 0x00#8 → step s = .next { u with fsm := .procHeader } ∧ u.crcAcc = 0x0000#16) ∧
    (b = 0x01#8 → step s = .next { u with fsm := .procData } ∧ u.crcAcc = 0x1021#16) ∧
    (b = 0xFF#8 → step s = exec .endOfTransfer u) ∧
    (b ≠ 0x00#8 → b ≠ 0x01#8 → b ≠ 0xFF#8 →
      step s = .next { u with
        fsm := .fault, faultCause := .unknownTag, out := s.out ++ [.event (.fault .unknownTag b 1#10)] })

/-- R114, R116: a byte inside a frame is stored at `FBUF[CNT]`, enters the checksum unless it belongs to the checksum
field, and is counted; a step that does not complete the frame has no output. -/
def Obligations.CollectingStepStoresOneByte : Prop :=
  ∀ (s : State) (sh : FrameShape) (b : Byte) (rest : List Symbol), s.rst = false →
    (s.fsm = .procHeader ∧ sh = .header ∨ s.fsm = .procData ∧ sh = .data) →
    s.chan = .byte b :: rest → 1 ≤ s.cnt.toNat → s.cnt.toNat + 1 < sh.len →
    ∃ t, step s = .next t ∧
      (∀ k, k < 520 → t.fbufAt k = if k = s.cnt.toNat then b else s.fbufAt k) ∧
      t.crcAcc = (if s.cnt.toNat ≤ sh.len - 3 then crc16Update s.crcAcc b else s.crcAcc) ∧
      t.cnt.toNat = s.cnt.toNat + 1 ∧ t.fsm = s.fsm ∧ t.hdrSeen = s.hdrSeen ∧ t.maxHead = s.maxHead ∧
      t.maxSector = s.maxSector ∧ t.faultCause = s.faultCause ∧ t.chan = rest ∧ t.out = s.out ∧
      t.image = s.image ∧ t.sinkOpen = s.sinkOpen

/-- R115, R141, R190: in a state that meets the invariant, the last byte of a header frame stores the geometry,
reports the frame with the checksum of its first six bytes, and returns to `AWAIT_TAG`; no other register and nothing
else of the environment changes. -/
def Obligations.HeaderFrameCompletesInItsLastStep : Prop :=
  ∀ (s : State) (b : Byte) (rest : List Symbol), Inv s → s.rst = false → s.fsm = .procHeader → s.cnt.toNat = 7 →
    s.chan = .byte b :: rest →
    ∃ t, step s = .next t ∧ t.fsm = .awaitTag ∧ t.cnt = 0#10 ∧ t.hdrSeen = true ∧
      t.maxHead = some (s.fbufAt 4) ∧ t.maxSector = some (s.fbufAt 5) ∧ t.crcAcc = s.crcAcc ∧
      t.faultCause = s.faultCause ∧ t.chan = rest ∧ t.image = s.image ∧ t.sinkOpen = s.sinkOpen ∧
      t.out = s.out ++ [.event (.header
        { status := s.fbufAt 1, maxCylinder := le16 (s.fbufAt 2) (s.fbufAt 3), maxHead := s.fbufAt 4,
          maxSector := s.fbufAt 5, crcRx := le16 (s.fbufAt 6) b, crcCalc := crc16 (s.fbuf.bytes.take 6),
          crcOk := le16 (s.fbufAt 6) b == crc16 (s.fbuf.bytes.take 6), devErr := s.fbufAt 1 != 0#8,
          repeated := s.hdrSeen })]

/-- R117, R144, R191: in a state that meets the invariant, the last byte of a data frame issues the write where there
is an offset, reports the frame with the checksum of its first 518 bytes, changes no geometry and returns to
`AWAIT_TAG`. -/
def Obligations.DataFrameCompletesInItsLastStep : Prop :=
  ∀ (s : State) (b : Byte) (rest : List Symbol), Inv s → s.rst = false → s.fsm = .procData → s.cnt.toNat = 519 →
    s.chan = .byte b :: rest →
    ∃ t, step s = .next t ∧ t.fsm = .awaitTag ∧ t.cnt = 0#10 ∧ t.hdrSeen = s.hdrSeen ∧ t.maxHead = s.maxHead ∧
      t.maxSector = s.maxSector ∧ t.crcAcc = s.crcAcc ∧ t.faultCause = s.faultCause ∧ t.chan = rest ∧
      t.sinkOpen = s.sinkOpen ∧
      t.out = s.out ++
        (match dataOffset s.cyl s.head s.sect s with
          | some o => [.sink (.write o s.payload)]
          | none => []) ++
        [.event (.data
          { status := s.fbufAt 1, cylinder := le16 (s.fbufAt 2) (s.fbufAt 3), head := s.fbufAt 4,
            sector := s.fbufAt 5, crcRx := le16 (s.fbufAt 518) b, crcCalc := crc16 (s.fbuf.bytes.take 518),
            crcOk := le16 (s.fbufAt 518) b == crc16 (s.fbuf.bytes.take 518), devErr := s.fbufAt 1 != 0#8,
            good := le16 (s.fbufAt 518) b == crc16 (s.fbuf.bytes.take 518) && s.fbufAt 1 == 0#8,
            orderViol := !s.hdrSeen,
            lbaUndef := s.hdrSeen && (s.maxSector == some 0#8 || s.fbufAt 5 == 0#8),
            written := s.hdrSeen && !(s.maxSector == some 0#8 || s.fbufAt 5 == 0#8),
            lba := dataLba s.cyl s.head s.sect s,
            offset := dataOffset s.cyl s.head s.sect s })]

/-- R183: whatever its flags are, a completed header or data frame is followed by `AWAIT_TAG` with `CNT = 0`. -/
def Obligations.ReportedConditionsNeverChangeControl : Prop :=
  ∀ (s : State) (b : Byte) (rest : List Symbol), s.rst = false → s.chan = .byte b :: rest →
    (s.fsm = .procHeader ∧ s.cnt.toNat = 7 ∨ s.fsm = .procData ∧ s.cnt.toNat = 519) →
    ∃ t, step s = .next t ∧ t.fsm = .awaitTag ∧ t.cnt = 0#10

/-- R113, R118 (and R186): the end of the stream and a channel error are fatal in every state that reads: the cause,
`STATE`, the consumed symbol and one event record, and nothing else. -/
def Obligations.EndOfStreamIsAFatalFault : Prop :=
  ∀ (s : State) (sym : Symbol) (rest : List Symbol) (cause : FaultCause), s.rst = false →
    (s.fsm = .awaitTag ∨ s.fsm = .procHeader ∨ s.fsm = .procData) → s.chan = sym :: rest →
    (sym = .eos ∧ cause = .truncated ∨ sym = .err ∧ cause = .channelError) →
    step s = .next { s with
      chan := rest, fsm := .fault, faultCause := cause, out := s.out ++ [.event (.fault cause s.tag s.cnt)] }

/-- R186, R187 (and R188, marked "derived"): however a step enters `FAULT`, it reports the cause, the tag and the
count as they then stand, stores no geometry, writes nothing and leaves the sink as it was. -/
def Obligations.FaultEntryIsPrecise : Prop :=
  ∀ s t : State, step s = .next t → s.fsm ≠ .fault → t.fsm = .fault →
    t.faultCause ≠ .none ∧ t.out = s.out ++ [.event (.fault t.faultCause t.tag t.cnt)] ∧
    t.hdrSeen = s.hdrSeen ∧ t.maxHead = s.maxHead ∧ t.maxSector = s.maxSector ∧ t.image = s.image ∧
    t.sinkOpen = s.sinkOpen

/-- R119: `DONE` and `FAULT` have no step; only reset leads out of them. -/
def Obligations.DoneAndFaultHaveNoStep : Prop :=
  (∀ s : State, s.rst = false → s.fsm = .done → step s = .fault .noStepDone) ∧
  (∀ s : State, s.rst = false → s.fsm = .fault → step s = .fault .noStepFault) ∧
  ∀ s t : State, step s = .next t → s.fsm = .done ∨ s.fsm = .fault → s.rst = true ∧ t.fsm = .awaitTag

/-- R123, R196: while the channel offers no symbol the engine holds its state.  That the model answers with a next state
equal to the old one is the model's choice, log entry 5. -/
def Obligations.WaitingHoldsTheState : Prop :=
  ∀ s : State, s.rst = false → s.inReady = true → s.chan = [] → step s = .next s

/-- R23, R210, R211: reset takes precedence over a symbol, gives every register whose reset value the spec states that
value, and touches neither the channel, the sink, the image nor the outputs; the state after reset is so too. -/
def Obligations.ResetReplacesTheRegistersAndNothingElse : Prop :=
  (∀ s : State, s.rst = true → ∃ t, step s = .next t ∧
    t.fsm = .awaitTag ∧ t.cnt = 0#10 ∧ t.crcAcc = 0x0000#16 ∧ t.hdrSeen = false ∧ t.maxHead = none ∧
    t.maxSector = none ∧ t.faultCause = .none ∧
    t.chan = s.chan ∧ t.image = s.image ∧ t.sinkOpen = s.sinkOpen ∧ t.out = s.out) ∧
  State.reset.fsm = .awaitTag ∧ State.reset.cnt = 0#10 ∧ State.reset.crcAcc = 0x0000#16 ∧
  State.reset.hdrSeen = false ∧ State.reset.maxHead = none ∧ State.reset.maxSector = none ∧
  State.reset.faultCause = .none ∧ State.reset.out = []

/-! ## Whole-machine rules -/

/-- The invariant holds right after reset.  Rests on R23 and on what R24 lists, which the spec marks "derived". -/
def Obligations.ResetMeetsTheInvariant : Prop := Inv State.reset

/-- Every step keeps the invariant, from every state that meets it. Rests on R12, R15, R17, R18; R24 lists the
invariant and marks it "derived: from rules R11 to R18 and 41_framing_fsm.md rules R111 to R119". -/
def Obligations.EveryStepKeepsTheInvariant : Prop :=
  ∀ s t : State, Inv s → step s = .next t → Inv t

/-- `STATE` and `CNT` follow the transition table. Rests on R112 to R118; R120 is the table and is marked "derived:
from rules R112 to R119". -/
def Obligations.ControlFollowsTheTransitionTable : Prop :=
  ∀ (s t : State) (sym : Symbol) (rest : List Symbol), Inv s → s.rst = false → s.chan = sym :: rest →
    step s = .next t → (t.fsm, t.cnt.toNat) = controlAfter s.fsm s.cnt.toNat sym

/-- R110, R50: a step consumes exactly the symbol the channel offers first. -/
def Obligations.EachStepConsumesOneSymbol : Prop :=
  ∀ s t : State, s.rst = false → step s = .next t → t.chan = s.chan.tail

/-- R42: the engine takes every symbol in the states that are ready, and none in the others. -/
def Obligations.ReadyEngineTakesEverySymbol : Prop :=
  ∀ (s : State) (sym : Symbol) (rest : List Symbol), Inv s → s.rst = false → s.chan = sym :: rest →
    (s.inReady = true ↔ s.fsm = .awaitTag ∨ s.fsm = .procHeader ∨ s.fsm = .procData) ∧
    (s.inReady = true → ∃ t, step s = .next t ∧ t.chan = rest) ∧
    (s.inReady = false → ∀ t, step s ≠ .next t)

/-- R10: equal registers and equal input symbols give equal registers and equal outputs, whatever the image, the
outputs so far and the rest of the channel are. -/
def Obligations.EngineIsDeterministicAndBlindToTheSink : Prop :=
  ∀ s₁ s₂ t₁ : State, s₁.registers = s₂.registers → s₁.rst = s₂.rst → s₁.chan.head? = s₂.chan.head? →
    step s₁ = .next t₁ →
    ∃ t₂ new, step s₂ = .next t₂ ∧ t₁.registers = t₂.registers ∧
      t₁.out = s₁.out ++ new ∧ t₂.out = s₂.out ++ new

/-- R45, R51, R52, R56: a step only appends to the outputs: nothing, or one event record, or one sink operation and then
one event record; and the image is the old one with the appended writes carried out. -/
def Obligations.ImageFollowsFromTheOutputs : Prop :=
  ∀ s t : State, step s = .next t →
    ∃ new, t.out = s.out ++ new ∧ t.image = applyOutputs s.image new ∧
      (new = [] ∨ (∃ e, new = [.event e]) ∨ ∃ op e, new = [.sink op, .event e])

/-- R16, R17: without a reset, only the step that completes a header frame changes `HDR_SEEN`, `MAX_HEAD` or
`MAX_SECTOR`, and it stores that frame's bytes 4 and 5. -/
def Obligations.GeometryChangesOnlyWithAHeader : Prop :=
  ∀ s t : State, s.rst = false → step s = .next t →
    (t.hdrSeen ≠ s.hdrSeen ∨ t.maxHead ≠ s.maxHead ∨ t.maxSector ≠ s.maxSector) →
    s.fsm = .procHeader ∧ s.cnt.toNat = 7 ∧ t.hdrSeen = true ∧
      t.maxHead = some (s.fbufAt 4) ∧ t.maxSector = some (s.fbufAt 5)

/-- R45, R162 (and R49, R164, marked "derived"): every write is a whole block of 512 bytes, the frame's payload as
received, at a multiple of 512 within the image, and is issued by the step that completes a data frame after a header.
-/
def Obligations.EveryWriteIsAWholeAlignedBlock : Prop :=
  ∀ (s t : State) (off : BitVec 41) (data : List Byte), step s = .next t →
    Output.sink (.write off data) ∈ t.out.drop s.out.length →
    s.fsm = .procData ∧ s.cnt.toNat = 519 ∧ s.hdrSeen = true ∧ data.length = 512 ∧
      (∀ j, j < 512 → byteAt data j = s.fbufAt (6 + j)) ∧
      512 ∣ off.toNat ∧ off.toNat + 511 ≤ 0x1FDFFFFFFFF

/-- R46, R187: `CLOSE` is issued exactly by the step that enters `DONE`; a fault leaves the sink as it was. -/
def Obligations.SinkIsClosedExactlyOnEnteringDone : Prop :=
  ∀ s t : State, step s = .next t →
    (Output.sink .close ∈ t.out.drop s.out.length ↔ t.fsm = .done) ∧
    (t.fsm = .done → t.sinkOpen = false) ∧ (t.fsm ≠ .done → t.sinkOpen = s.sinkOpen)

/-- R124: a run over symbols that hold `EOS` or `ERR` ends, within as many steps as there are symbols. -/
def Obligations.RunEndsOnceTheStreamEnds : Prop :=
  ∀ s : State, Inv s → s.rst = false → s.inReady = true → Symbol.eos ∈ s.chan ∨ Symbol.err ∈ s.chan →
    ∃ n t, n ≤ s.chan.length ∧ runSteps n s = .next t ∧ t.ended = true

/-- The byte steps and the blocking-read loop are the same machine: one turn of the loop ends in the state that many
byte steps end in; while a read blocks, the byte steps take what there is, without output.  Rests
on R41 and R111 to R119; R121 says it and marks it "derived: ... by induction on CNT". -/
def Obligations.ByteStepsAgreeWithTheFrameLoop : Prop :=
  ∀ s : State, s.fsm = .awaitTag → s.rst = false →
    (∀ n o, frameTurn s = some (n, o) → 0 < n ∧ runSteps n s = o) ∧
    (frameTurn s = none → ∃ t, runSteps s.chan.length s = .next t ∧
      t.chan = [] ∧ t.out = s.out ∧ t.inReady = true)

/-- R110, R111 (and R121, marked "derived"): a frame sent byte by byte to an engine that awaits a tag runs as that
instruction, on a state whose `FBUF` holds the frame and whose `CRC_ACC` holds the checksum of the covered bytes. -/
def Obligations.EncodedFrameRunsItsInstruction : Prop :=
  ∀ (i : Instr) (s : State) (rest : List Symbol), i.wf = true → s.fsm = .awaitTag → s.rst = false →
    s.chan = (encode i).map .byte ++ rest →
    ∃ u w, exec i u = .next w ∧
      runSteps (encode i).length s =
        .next (if i = .endOfTransfer then w else { w with fsm := .awaitTag, cnt := 0#10 }) ∧
      u.crcAcc = crc16 ((encode i).take i.shape.covered) ∧
      (∀ k, k < (encode i).length → u.fbufAt k = byteAt (encode i) k) ∧
      u.hdrSeen = s.hdrSeen ∧ u.maxHead = s.maxHead ∧ u.maxSector = s.maxSector ∧
      u.faultCause = s.faultCause ∧ u.chan = rest ∧ u.image = s.image ∧ u.sinkOpen = s.sinkOpen ∧ u.out = s.out

/-- Log entry 6 (the model's choice): a header or data frame placed by `placeFrame`, and so by `withFetchWord`, is the
state the byte steps reach when the channel delivers that frame. -/
def Obligations.PlacedFrameIsWhereTheByteStepsArrive : Prop :=
  ∀ (s : State) (sh : FrameShape) (bytes : List Byte) (rest : List Symbol),
    (sh = .header ∨ sh = .data) → bytes.length = sh.len → shapeOfTag (byteAt bytes 0) = some sh →
    s.fsm = .awaitTag → s.rst = false → s.chan = bytes.map .byte ++ rest →
    runSteps (sh.len - 1) s = .next (placeFrame bytes (s.afterSymbol rest))
end

