-- ==== Sys2Proof/Laws/Checksum.lean ====
section
/-! SUPPORT. The checksum unit, one equation per definition. -/

namespace Sys2Proof.Machine

@[simp] theorem crc16From_nil (c : Half) : crc16From c [] = c := rfl

@[simp] theorem crc16From_cons (c : Half) (b : Byte) (bs : List Byte) :
    crc16From c (b :: bs) = crc16From (crc16Update c b) bs := by
  simp [crc16From]

theorem crc16From_append (c : Half) (xs ys : List Byte) :
    crc16From c (xs ++ ys) = crc16From (crc16From c xs) ys := by
  induction xs generalizing c with
  | nil => rfl
  | cons x xs ih => simp [ih]

end Sys2Proof.Machine
end

