-- ==== Sys2Proof/Laws/Decode.lean ====
section
/-! SUPPORT. The tag map and the parts of the decoder, said once. -/

namespace Sys2Proof

@[simp] theorem shapeOfTag_hdr : shapeOfTag 0x00#8 = some .header := rfl
@[simp] theorem shapeOfTag_dat : shapeOfTag 0x01#8 = some .data := rfl
@[simp] theorem shapeOfTag_end : shapeOfTag 0xFF#8 = some .terminator := rfl

theorem shapeOfTag_eq_header {b : Byte} : shapeOfTag b = some .header ↔ b = Config.tagHdr := by
  by_cases h0 : b = 0x00#8
  · subst h0; decide
  · by_cases h1 : b = 0x01#8
    · subst h1; decide
    · by_cases h2 : b = 0xFF#8
      · subst h2; decide
      · simp [shapeOfTag, h0, h1, h2]

theorem shapeOfTag_eq_data {b : Byte} : shapeOfTag b = some .data ↔ b = Config.tagDat := by
  by_cases h0 : b = 0x00#8
  · subst h0; decide
  · by_cases h1 : b = 0x01#8
    · subst h1; decide
    · by_cases h2 : b = 0xFF#8
      · subst h2; decide
      · simp [shapeOfTag, h0, h1, h2]

theorem shapeOfTag_eq_terminator {b : Byte} : shapeOfTag b = some .terminator ↔ b = Config.tagEnd := by
  by_cases h0 : b = 0x00#8
  · subst h0; decide
  · by_cases h1 : b = 0x01#8
    · subst h1; decide
    · by_cases h2 : b = 0xFF#8
      · subst h2; decide
      · simp [shapeOfTag, h0, h1, h2]

@[simp] theorem len_header : FrameShape.header.len = 8 := rfl
@[simp] theorem len_data : FrameShape.data.len = 520 := rfl
@[simp] theorem len_terminator : FrameShape.terminator.len = 1 := rfl
@[simp] theorem covered_header : FrameShape.header.covered = 6 := rfl
@[simp] theorem covered_data : FrameShape.data.covered = 518 := rfl
@[simp] theorem covered_terminator : FrameShape.terminator.covered = 1 := rfl

@[simp] theorem byteAt_cons_zero (b : Byte) (l : List Byte) : byteAt (b :: l) 0 = b := rfl
@[simp] theorem byteAt_cons_succ (b : Byte) (l : List Byte) (k : Nat) : byteAt (b :: l) (k + 1) = byteAt l k := rfl

theorem byteAt_eq_getElem {l : List Byte} {k : Nat} (h : k < l.length) : byteAt l k = l[k] := by
  simp [byteAt, List.getD_eq_getElem?_getD, List.getElem?_eq_getElem h]

@[simp] theorem lowByte_le16 (lo hi : Byte) : lowByte (le16 lo hi) = lo := by
  unfold lowByte le16
  ext i hi'
  rw [BitVec.getElem_extractLsb']
  show (hi ++ lo : BitVec (8 + 8)).getLsbD (0 + i) = lo[i]
  rw [BitVec.getLsbD_append]
  simp [hi', BitVec.getLsbD_eq_getElem]

@[simp] theorem highByte_le16 (lo hi : Byte) : highByte (le16 lo hi) = hi := by
  unfold highByte le16
  ext i hi'
  rw [BitVec.getElem_extractLsb']
  show (hi ++ lo : BitVec (8 + 8)).getLsbD (8 + i) = hi[i]
  rw [BitVec.getLsbD_append]
  simp [hi', BitVec.getLsbD_eq_getElem]

end Sys2Proof
end

