-- ==== Sys2Proof/Laws/State.lean ====
section
/-! SUPPORT. One lemma per field per update of State, each true by rfl. -/

namespace Sys2Proof.Machine

@[simp] theorem sinkWrite_fsm (off : BitVec 41) (data : List Byte) (s : State) : (s.sinkWrite off data).fsm = s.fsm := rfl
@[simp] theorem sinkWrite_cnt (off : BitVec 41) (data : List Byte) (s : State) : (s.sinkWrite off data).cnt = s.cnt := rfl
@[simp] theorem sinkWrite_fbuf (off : BitVec 41) (data : List Byte) (s : State) : (s.sinkWrite off data).fbuf = s.fbuf := rfl
@[simp] theorem sinkWrite_crcAcc (off : BitVec 41) (data : List Byte) (s : State) : (s.sinkWrite off data).crcAcc = s.crcAcc := rfl
@[simp] theorem sinkWrite_hdrSeen (off : BitVec 41) (data : List Byte) (s : State) : (s.sinkWrite off data).hdrSeen = s.hdrSeen := rfl
@[simp] theorem sinkWrite_maxHead (off : BitVec 41) (data : List Byte) (s : State) : (s.sinkWrite off data).maxHead = s.maxHead := rfl
@[simp] theorem sinkWrite_maxSector (off : BitVec 41) (data : List Byte) (s : State) : (s.sinkWrite off data).maxSector = s.maxSector := rfl
@[simp] theorem sinkWrite_faultCause (off : BitVec 41) (data : List Byte) (s : State) : (s.sinkWrite off data).faultCause = s.faultCause := rfl
@[simp] theorem sinkWrite_chan (off : BitVec 41) (data : List Byte) (s : State) : (s.sinkWrite off data).chan = s.chan := rfl
@[simp] theorem sinkWrite_rst (off : BitVec 41) (data : List Byte) (s : State) : (s.sinkWrite off data).rst = s.rst := rfl
@[simp] theorem sinkWrite_image (off : BitVec 41) (data : List Byte) (s : State) : (s.sinkWrite off data).image = Memory.write off.toNat data s.image := rfl
@[simp] theorem sinkWrite_sinkOpen (off : BitVec 41) (data : List Byte) (s : State) : (s.sinkWrite off data).sinkOpen = s.sinkOpen := rfl
@[simp] theorem sinkWrite_out (off : BitVec 41) (data : List Byte) (s : State) : (s.sinkWrite off data).out = s.out ++ [.sink (.write off data)] := rfl

@[simp] theorem sinkClose_fsm (s : State) : (s.sinkClose).fsm = s.fsm := rfl
@[simp] theorem sinkClose_cnt (s : State) : (s.sinkClose).cnt = s.cnt := rfl
@[simp] theorem sinkClose_fbuf (s : State) : (s.sinkClose).fbuf = s.fbuf := rfl
@[simp] theorem sinkClose_crcAcc (s : State) : (s.sinkClose).crcAcc = s.crcAcc := rfl
@[simp] theorem sinkClose_hdrSeen (s : State) : (s.sinkClose).hdrSeen = s.hdrSeen := rfl
@[simp] theorem sinkClose_maxHead (s : State) : (s.sinkClose).maxHead = s.maxHead := rfl
@[simp] theorem sinkClose_maxSector (s : State) : (s.sinkClose).maxSector = s.maxSector := rfl
@[simp] theorem sinkClose_faultCause (s : State) : (s.sinkClose).faultCause = s.faultCause := rfl
@[simp] theorem sinkClose_chan (s : State) : (s.sinkClose).chan = s.chan := rfl
@[simp] theorem sinkClose_rst (s : State) : (s.sinkClose).rst = s.rst := rfl
@[simp] theorem sinkClose_image (s : State) : (s.sinkClose).image = s.image := rfl
@[simp] theorem sinkClose_sinkOpen (s : State) : (s.sinkClose).sinkOpen = false := rfl
@[simp] theorem sinkClose_out (s : State) : (s.sinkClose).out = s.out ++ [.sink .close] := rfl

@[simp] theorem emit_fsm (e : Event) (s : State) : (s.emit e).fsm = s.fsm := rfl
@[simp] theorem emit_cnt (e : Event) (s : State) : (s.emit e).cnt = s.cnt := rfl
@[simp] theorem emit_fbuf (e : Event) (s : State) : (s.emit e).fbuf = s.fbuf := rfl
@[simp] theorem emit_crcAcc (e : Event) (s : State) : (s.emit e).crcAcc = s.crcAcc := rfl
@[simp] theorem emit_hdrSeen (e : Event) (s : State) : (s.emit e).hdrSeen = s.hdrSeen := rfl
@[simp] theorem emit_maxHead (e : Event) (s : State) : (s.emit e).maxHead = s.maxHead := rfl
@[simp] theorem emit_maxSector (e : Event) (s : State) : (s.emit e).maxSector = s.maxSector := rfl
@[simp] theorem emit_faultCause (e : Event) (s : State) : (s.emit e).faultCause = s.faultCause := rfl
@[simp] theorem emit_chan (e : Event) (s : State) : (s.emit e).chan = s.chan := rfl
@[simp] theorem emit_rst (e : Event) (s : State) : (s.emit e).rst = s.rst := rfl
@[simp] theorem emit_image (e : Event) (s : State) : (s.emit e).image = s.image := rfl
@[simp] theorem emit_sinkOpen (e : Event) (s : State) : (s.emit e).sinkOpen = s.sinkOpen := rfl
@[simp] theorem emit_out (e : Event) (s : State) : (s.emit e).out = s.out ++ [.event e] := rfl

@[simp] theorem raiseFault_fsm (c : FaultCause) (s : State) : (s.raiseFault c).fsm = .fault := rfl
@[simp] theorem raiseFault_cnt (c : FaultCause) (s : State) : (s.raiseFault c).cnt = s.cnt := rfl
@[simp] theorem raiseFault_fbuf (c : FaultCause) (s : State) : (s.raiseFault c).fbuf = s.fbuf := rfl
@[simp] theorem raiseFault_crcAcc (c : FaultCause) (s : State) : (s.raiseFault c).crcAcc = s.crcAcc := rfl
@[simp] theorem raiseFault_hdrSeen (c : FaultCause) (s : State) : (s.raiseFault c).hdrSeen = s.hdrSeen := rfl
@[simp] theorem raiseFault_maxHead (c : FaultCause) (s : State) : (s.raiseFault c).maxHead = s.maxHead := rfl
@[simp] theorem raiseFault_maxSector (c : FaultCause) (s : State) : (s.raiseFault c).maxSector = s.maxSector := rfl
@[simp] theorem raiseFault_faultCause (c : FaultCause) (s : State) : (s.raiseFault c).faultCause = c := rfl
@[simp] theorem raiseFault_chan (c : FaultCause) (s : State) : (s.raiseFault c).chan = s.chan := rfl
@[simp] theorem raiseFault_rst (c : FaultCause) (s : State) : (s.raiseFault c).rst = s.rst := rfl
@[simp] theorem raiseFault_image (c : FaultCause) (s : State) : (s.raiseFault c).image = s.image := rfl
@[simp] theorem raiseFault_sinkOpen (c : FaultCause) (s : State) : (s.raiseFault c).sinkOpen = s.sinkOpen := rfl
@[simp] theorem raiseFault_out (c : FaultCause) (s : State) : (s.raiseFault c).out = s.out ++ [.event (.fault c s.tag s.cnt)] := rfl

@[simp] theorem setGeometry_fsm (mh ms : Byte) (s : State) : (s.setGeometry mh ms).fsm = s.fsm := rfl
@[simp] theorem setGeometry_cnt (mh ms : Byte) (s : State) : (s.setGeometry mh ms).cnt = s.cnt := rfl
@[simp] theorem setGeometry_fbuf (mh ms : Byte) (s : State) : (s.setGeometry mh ms).fbuf = s.fbuf := rfl
@[simp] theorem setGeometry_crcAcc (mh ms : Byte) (s : State) : (s.setGeometry mh ms).crcAcc = s.crcAcc := rfl
@[simp] theorem setGeometry_hdrSeen (mh ms : Byte) (s : State) : (s.setGeometry mh ms).hdrSeen = true := rfl
@[simp] theorem setGeometry_maxHead (mh ms : Byte) (s : State) : (s.setGeometry mh ms).maxHead = some mh := rfl
@[simp] theorem setGeometry_maxSector (mh ms : Byte) (s : State) : (s.setGeometry mh ms).maxSector = some ms := rfl
@[simp] theorem setGeometry_faultCause (mh ms : Byte) (s : State) : (s.setGeometry mh ms).faultCause = s.faultCause := rfl
@[simp] theorem setGeometry_chan (mh ms : Byte) (s : State) : (s.setGeometry mh ms).chan = s.chan := rfl
@[simp] theorem setGeometry_rst (mh ms : Byte) (s : State) : (s.setGeometry mh ms).rst = s.rst := rfl
@[simp] theorem setGeometry_image (mh ms : Byte) (s : State) : (s.setGeometry mh ms).image = s.image := rfl
@[simp] theorem setGeometry_sinkOpen (mh ms : Byte) (s : State) : (s.setGeometry mh ms).sinkOpen = s.sinkOpen := rfl
@[simp] theorem setGeometry_out (mh ms : Byte) (s : State) : (s.setGeometry mh ms).out = s.out := rfl

@[simp] theorem storeByte_fsm (i : Nat) (b : Byte) (s : State) : (s.storeByte i b).fsm = s.fsm := rfl
@[simp] theorem storeByte_cnt (i : Nat) (b : Byte) (s : State) : (s.storeByte i b).cnt = s.cnt := rfl
@[simp] theorem storeByte_fbuf (i : Nat) (b : Byte) (s : State) : (s.storeByte i b).fbuf = bufferSet i b s.fbuf := rfl
@[simp] theorem storeByte_crcAcc (i : Nat) (b : Byte) (s : State) : (s.storeByte i b).crcAcc = s.crcAcc := rfl
@[simp] theorem storeByte_hdrSeen (i : Nat) (b : Byte) (s : State) : (s.storeByte i b).hdrSeen = s.hdrSeen := rfl
@[simp] theorem storeByte_maxHead (i : Nat) (b : Byte) (s : State) : (s.storeByte i b).maxHead = s.maxHead := rfl
@[simp] theorem storeByte_maxSector (i : Nat) (b : Byte) (s : State) : (s.storeByte i b).maxSector = s.maxSector := rfl
@[simp] theorem storeByte_faultCause (i : Nat) (b : Byte) (s : State) : (s.storeByte i b).faultCause = s.faultCause := rfl
@[simp] theorem storeByte_chan (i : Nat) (b : Byte) (s : State) : (s.storeByte i b).chan = s.chan := rfl
@[simp] theorem storeByte_rst (i : Nat) (b : Byte) (s : State) : (s.storeByte i b).rst = s.rst := rfl
@[simp] theorem storeByte_image (i : Nat) (b : Byte) (s : State) : (s.storeByte i b).image = s.image := rfl
@[simp] theorem storeByte_sinkOpen (i : Nat) (b : Byte) (s : State) : (s.storeByte i b).sinkOpen = s.sinkOpen := rfl
@[simp] theorem storeByte_out (i : Nat) (b : Byte) (s : State) : (s.storeByte i b).out = s.out := rfl

@[simp] theorem toAwaitTag_fsm (s : State) : (s.toAwaitTag).fsm = .awaitTag := rfl
@[simp] theorem toAwaitTag_cnt (s : State) : (s.toAwaitTag).cnt = 0#10 := rfl
@[simp] theorem toAwaitTag_fbuf (s : State) : (s.toAwaitTag).fbuf = s.fbuf := rfl
@[simp] theorem toAwaitTag_crcAcc (s : State) : (s.toAwaitTag).crcAcc = s.crcAcc := rfl
@[simp] theorem toAwaitTag_hdrSeen (s : State) : (s.toAwaitTag).hdrSeen = s.hdrSeen := rfl
@[simp] theorem toAwaitTag_maxHead (s : State) : (s.toAwaitTag).maxHead = s.maxHead := rfl
@[simp] theorem toAwaitTag_maxSector (s : State) : (s.toAwaitTag).maxSector = s.maxSector := rfl
@[simp] theorem toAwaitTag_faultCause (s : State) : (s.toAwaitTag).faultCause = s.faultCause := rfl
@[simp] theorem toAwaitTag_chan (s : State) : (s.toAwaitTag).chan = s.chan := rfl
@[simp] theorem toAwaitTag_rst (s : State) : (s.toAwaitTag).rst = s.rst := rfl
@[simp] theorem toAwaitTag_image (s : State) : (s.toAwaitTag).image = s.image := rfl
@[simp] theorem toAwaitTag_sinkOpen (s : State) : (s.toAwaitTag).sinkOpen = s.sinkOpen := rfl
@[simp] theorem toAwaitTag_out (s : State) : (s.toAwaitTag).out = s.out := rfl

@[simp] theorem applyReset_fsm (s : State) : (s.applyReset).fsm = .awaitTag := rfl
@[simp] theorem applyReset_cnt (s : State) : (s.applyReset).cnt = 0#10 := rfl
@[simp] theorem applyReset_fbuf (s : State) : (s.applyReset).fbuf = State.reset.fbuf := rfl
@[simp] theorem applyReset_crcAcc (s : State) : (s.applyReset).crcAcc = Config.crcInit := rfl
@[simp] theorem applyReset_hdrSeen (s : State) : (s.applyReset).hdrSeen = false := rfl
@[simp] theorem applyReset_maxHead (s : State) : (s.applyReset).maxHead = none := rfl
@[simp] theorem applyReset_maxSector (s : State) : (s.applyReset).maxSector = none := rfl
@[simp] theorem applyReset_faultCause (s : State) : (s.applyReset).faultCause = .none := rfl
@[simp] theorem applyReset_chan (s : State) : (s.applyReset).chan = s.chan := rfl
@[simp] theorem applyReset_rst (s : State) : (s.applyReset).rst = false := rfl
@[simp] theorem applyReset_image (s : State) : (s.applyReset).image = s.image := rfl
@[simp] theorem applyReset_sinkOpen (s : State) : (s.applyReset).sinkOpen = s.sinkOpen := rfl
@[simp] theorem applyReset_out (s : State) : (s.applyReset).out = s.out := rfl

@[simp] theorem takeTag_fsm (b : Byte) (s : State) : (takeTag b s).fsm = s.fsm := rfl
@[simp] theorem takeTag_cnt (b : Byte) (s : State) : (takeTag b s).cnt = 1#10 := rfl
@[simp] theorem takeTag_fbuf (b : Byte) (s : State) : (takeTag b s).fbuf = bufferSet 0 b s.fbuf := rfl
@[simp] theorem takeTag_crcAcc (b : Byte) (s : State) : (takeTag b s).crcAcc = crc16Update Config.crcInit b := rfl
@[simp] theorem takeTag_hdrSeen (b : Byte) (s : State) : (takeTag b s).hdrSeen = s.hdrSeen := rfl
@[simp] theorem takeTag_maxHead (b : Byte) (s : State) : (takeTag b s).maxHead = s.maxHead := rfl
@[simp] theorem takeTag_maxSector (b : Byte) (s : State) : (takeTag b s).maxSector = s.maxSector := rfl
@[simp] theorem takeTag_faultCause (b : Byte) (s : State) : (takeTag b s).faultCause = s.faultCause := rfl
@[simp] theorem takeTag_chan (b : Byte) (s : State) : (takeTag b s).chan = s.chan := rfl
@[simp] theorem takeTag_rst (b : Byte) (s : State) : (takeTag b s).rst = s.rst := rfl
@[simp] theorem takeTag_image (b : Byte) (s : State) : (takeTag b s).image = s.image := rfl
@[simp] theorem takeTag_sinkOpen (b : Byte) (s : State) : (takeTag b s).sinkOpen = s.sinkOpen := rfl
@[simp] theorem takeTag_out (b : Byte) (s : State) : (takeTag b s).out = s.out := rfl

@[simp] theorem takeByte_fsm (sh : FrameShape) (b : Byte) (s : State) : (takeByte sh b s).fsm = s.fsm := rfl
@[simp] theorem takeByte_cnt (sh : FrameShape) (b : Byte) (s : State) : (takeByte sh b s).cnt = s.cnt + 1#10 := rfl
@[simp] theorem takeByte_fbuf (sh : FrameShape) (b : Byte) (s : State) : (takeByte sh b s).fbuf = bufferSet s.cnt.toNat b s.fbuf := rfl
@[simp] theorem takeByte_crcAcc (sh : FrameShape) (b : Byte) (s : State) : (takeByte sh b s).crcAcc = crcAfter sh.covered s.cnt.toNat b s.crcAcc := rfl
@[simp] theorem takeByte_hdrSeen (sh : FrameShape) (b : Byte) (s : State) : (takeByte sh b s).hdrSeen = s.hdrSeen := rfl
@[simp] theorem takeByte_maxHead (sh : FrameShape) (b : Byte) (s : State) : (takeByte sh b s).maxHead = s.maxHead := rfl
@[simp] theorem takeByte_maxSector (sh : FrameShape) (b : Byte) (s : State) : (takeByte sh b s).maxSector = s.maxSector := rfl
@[simp] theorem takeByte_faultCause (sh : FrameShape) (b : Byte) (s : State) : (takeByte sh b s).faultCause = s.faultCause := rfl
@[simp] theorem takeByte_chan (sh : FrameShape) (b : Byte) (s : State) : (takeByte sh b s).chan = s.chan := rfl
@[simp] theorem takeByte_rst (sh : FrameShape) (b : Byte) (s : State) : (takeByte sh b s).rst = s.rst := rfl
@[simp] theorem takeByte_image (sh : FrameShape) (b : Byte) (s : State) : (takeByte sh b s).image = s.image := rfl
@[simp] theorem takeByte_sinkOpen (sh : FrameShape) (b : Byte) (s : State) : (takeByte sh b s).sinkOpen = s.sinkOpen := rfl
@[simp] theorem takeByte_out (sh : FrameShape) (b : Byte) (s : State) : (takeByte sh b s).out = s.out := rfl

@[simp] theorem loadFrame_fsm (sh : FrameShape) (bs : List Byte) (s : State) : (loadFrame sh bs s).fsm = s.fsm := rfl
@[simp] theorem loadFrame_cnt (sh : FrameShape) (bs : List Byte) (s : State) : (loadFrame sh bs s).cnt = BitVec.ofNat 10 bs.length := rfl
@[simp] theorem loadFrame_fbuf (sh : FrameShape) (bs : List Byte) (s : State) : (loadFrame sh bs s).fbuf = bufferLoad bs s.fbuf := rfl
@[simp] theorem loadFrame_crcAcc (sh : FrameShape) (bs : List Byte) (s : State) : (loadFrame sh bs s).crcAcc = crc16 (bs.take sh.covered) := rfl
@[simp] theorem loadFrame_hdrSeen (sh : FrameShape) (bs : List Byte) (s : State) : (loadFrame sh bs s).hdrSeen = s.hdrSeen := rfl
@[simp] theorem loadFrame_maxHead (sh : FrameShape) (bs : List Byte) (s : State) : (loadFrame sh bs s).maxHead = s.maxHead := rfl
@[simp] theorem loadFrame_maxSector (sh : FrameShape) (bs : List Byte) (s : State) : (loadFrame sh bs s).maxSector = s.maxSector := rfl
@[simp] theorem loadFrame_faultCause (sh : FrameShape) (bs : List Byte) (s : State) : (loadFrame sh bs s).faultCause = s.faultCause := rfl
@[simp] theorem loadFrame_chan (sh : FrameShape) (bs : List Byte) (s : State) : (loadFrame sh bs s).chan = s.chan := rfl
@[simp] theorem loadFrame_rst (sh : FrameShape) (bs : List Byte) (s : State) : (loadFrame sh bs s).rst = s.rst := rfl
@[simp] theorem loadFrame_image (sh : FrameShape) (bs : List Byte) (s : State) : (loadFrame sh bs s).image = s.image := rfl
@[simp] theorem loadFrame_sinkOpen (sh : FrameShape) (bs : List Byte) (s : State) : (loadFrame sh bs s).sinkOpen = s.sinkOpen := rfl
@[simp] theorem loadFrame_out (sh : FrameShape) (bs : List Byte) (s : State) : (loadFrame sh bs s).out = s.out := rfl

@[simp] theorem afterSymbol_fsm (rest : List Symbol) (s : State) : (s.afterSymbol rest).fsm = s.fsm := rfl
@[simp] theorem afterSymbol_cnt (rest : List Symbol) (s : State) : (s.afterSymbol rest).cnt = s.cnt := rfl
@[simp] theorem afterSymbol_fbuf (rest : List Symbol) (s : State) : (s.afterSymbol rest).fbuf = s.fbuf := rfl
@[simp] theorem afterSymbol_crcAcc (rest : List Symbol) (s : State) : (s.afterSymbol rest).crcAcc = s.crcAcc := rfl
@[simp] theorem afterSymbol_hdrSeen (rest : List Symbol) (s : State) : (s.afterSymbol rest).hdrSeen = s.hdrSeen := rfl
@[simp] theorem afterSymbol_maxHead (rest : List Symbol) (s : State) : (s.afterSymbol rest).maxHead = s.maxHead := rfl
@[simp] theorem afterSymbol_maxSector (rest : List Symbol) (s : State) : (s.afterSymbol rest).maxSector = s.maxSector := rfl
@[simp] theorem afterSymbol_faultCause (rest : List Symbol) (s : State) : (s.afterSymbol rest).faultCause = s.faultCause := rfl
@[simp] theorem afterSymbol_chan (rest : List Symbol) (s : State) : (s.afterSymbol rest).chan = rest := rfl
@[simp] theorem afterSymbol_rst (rest : List Symbol) (s : State) : (s.afterSymbol rest).rst = s.rst := rfl
@[simp] theorem afterSymbol_image (rest : List Symbol) (s : State) : (s.afterSymbol rest).image = s.image := rfl
@[simp] theorem afterSymbol_sinkOpen (rest : List Symbol) (s : State) : (s.afterSymbol rest).sinkOpen = s.sinkOpen := rfl
@[simp] theorem afterSymbol_out (rest : List Symbol) (s : State) : (s.afterSymbol rest).out = s.out := rfl

@[simp] theorem enter_fsm (sh : FrameShape) (s : State) : (s.enter sh).fsm = collectingState sh := rfl
@[simp] theorem enter_cnt (sh : FrameShape) (s : State) : (s.enter sh).cnt = s.cnt := rfl
@[simp] theorem enter_fbuf (sh : FrameShape) (s : State) : (s.enter sh).fbuf = s.fbuf := rfl
@[simp] theorem enter_crcAcc (sh : FrameShape) (s : State) : (s.enter sh).crcAcc = s.crcAcc := rfl
@[simp] theorem enter_hdrSeen (sh : FrameShape) (s : State) : (s.enter sh).hdrSeen = s.hdrSeen := rfl
@[simp] theorem enter_maxHead (sh : FrameShape) (s : State) : (s.enter sh).maxHead = s.maxHead := rfl
@[simp] theorem enter_maxSector (sh : FrameShape) (s : State) : (s.enter sh).maxSector = s.maxSector := rfl
@[simp] theorem enter_faultCause (sh : FrameShape) (s : State) : (s.enter sh).faultCause = s.faultCause := rfl
@[simp] theorem enter_chan (sh : FrameShape) (s : State) : (s.enter sh).chan = s.chan := rfl
@[simp] theorem enter_rst (sh : FrameShape) (s : State) : (s.enter sh).rst = s.rst := rfl
@[simp] theorem enter_image (sh : FrameShape) (s : State) : (s.enter sh).image = s.image := rfl
@[simp] theorem enter_sinkOpen (sh : FrameShape) (s : State) : (s.enter sh).sinkOpen = s.sinkOpen := rfl
@[simp] theorem enter_out (sh : FrameShape) (s : State) : (s.enter sh).out = s.out := rfl

@[simp] theorem deliver_fsm (syms : List Symbol) (s : State) : (s.deliver syms).fsm = s.fsm := rfl
@[simp] theorem deliver_cnt (syms : List Symbol) (s : State) : (s.deliver syms).cnt = s.cnt := rfl
@[simp] theorem deliver_fbuf (syms : List Symbol) (s : State) : (s.deliver syms).fbuf = s.fbuf := rfl
@[simp] theorem deliver_crcAcc (syms : List Symbol) (s : State) : (s.deliver syms).crcAcc = s.crcAcc := rfl
@[simp] theorem deliver_hdrSeen (syms : List Symbol) (s : State) : (s.deliver syms).hdrSeen = s.hdrSeen := rfl
@[simp] theorem deliver_maxHead (syms : List Symbol) (s : State) : (s.deliver syms).maxHead = s.maxHead := rfl
@[simp] theorem deliver_maxSector (syms : List Symbol) (s : State) : (s.deliver syms).maxSector = s.maxSector := rfl
@[simp] theorem deliver_faultCause (syms : List Symbol) (s : State) : (s.deliver syms).faultCause = s.faultCause := rfl
@[simp] theorem deliver_chan (syms : List Symbol) (s : State) : (s.deliver syms).chan = s.chan ++ syms := rfl
@[simp] theorem deliver_rst (syms : List Symbol) (s : State) : (s.deliver syms).rst = s.rst := rfl
@[simp] theorem deliver_image (syms : List Symbol) (s : State) : (s.deliver syms).image = s.image := rfl
@[simp] theorem deliver_sinkOpen (syms : List Symbol) (s : State) : (s.deliver syms).sinkOpen = s.sinkOpen := rfl
@[simp] theorem deliver_out (syms : List Symbol) (s : State) : (s.deliver syms).out = s.out := rfl

@[simp] theorem assertReset_fsm (s : State) : (s.assertReset).fsm = s.fsm := rfl
@[simp] theorem assertReset_cnt (s : State) : (s.assertReset).cnt = s.cnt := rfl
@[simp] theorem assertReset_fbuf (s : State) : (s.assertReset).fbuf = s.fbuf := rfl
@[simp] theorem assertReset_crcAcc (s : State) : (s.assertReset).crcAcc = s.crcAcc := rfl
@[simp] theorem assertReset_hdrSeen (s : State) : (s.assertReset).hdrSeen = s.hdrSeen := rfl
@[simp] theorem assertReset_maxHead (s : State) : (s.assertReset).maxHead = s.maxHead := rfl
@[simp] theorem assertReset_maxSector (s : State) : (s.assertReset).maxSector = s.maxSector := rfl
@[simp] theorem assertReset_faultCause (s : State) : (s.assertReset).faultCause = s.faultCause := rfl
@[simp] theorem assertReset_chan (s : State) : (s.assertReset).chan = s.chan := rfl
@[simp] theorem assertReset_rst (s : State) : (s.assertReset).rst = true := rfl
@[simp] theorem assertReset_image (s : State) : (s.assertReset).image = s.image := rfl
@[simp] theorem assertReset_sinkOpen (s : State) : (s.assertReset).sinkOpen = s.sinkOpen := rfl
@[simp] theorem assertReset_out (s : State) : (s.assertReset).out = s.out := rfl

@[simp] theorem openSink_fsm (m : Memory) (s : State) : (s.openSink m).fsm = s.fsm := rfl
@[simp] theorem openSink_cnt (m : Memory) (s : State) : (s.openSink m).cnt = s.cnt := rfl
@[simp] theorem openSink_fbuf (m : Memory) (s : State) : (s.openSink m).fbuf = s.fbuf := rfl
@[simp] theorem openSink_crcAcc (m : Memory) (s : State) : (s.openSink m).crcAcc = s.crcAcc := rfl
@[simp] theorem openSink_hdrSeen (m : Memory) (s : State) : (s.openSink m).hdrSeen = s.hdrSeen := rfl
@[simp] theorem openSink_maxHead (m : Memory) (s : State) : (s.openSink m).maxHead = s.maxHead := rfl
@[simp] theorem openSink_maxSector (m : Memory) (s : State) : (s.openSink m).maxSector = s.maxSector := rfl
@[simp] theorem openSink_faultCause (m : Memory) (s : State) : (s.openSink m).faultCause = s.faultCause := rfl
@[simp] theorem openSink_chan (m : Memory) (s : State) : (s.openSink m).chan = s.chan := rfl
@[simp] theorem openSink_rst (m : Memory) (s : State) : (s.openSink m).rst = s.rst := rfl
@[simp] theorem openSink_image (m : Memory) (s : State) : (s.openSink m).image = m := rfl
@[simp] theorem openSink_sinkOpen (m : Memory) (s : State) : (s.openSink m).sinkOpen = true := rfl
@[simp] theorem openSink_out (m : Memory) (s : State) : (s.openSink m).out = s.out := rfl

@[simp] theorem reset_fsm : State.reset.fsm = .awaitTag := rfl
@[simp] theorem reset_cnt : State.reset.cnt = 0#10 := rfl
@[simp] theorem reset_crcAcc : State.reset.crcAcc = Config.crcInit := rfl
@[simp] theorem reset_hdrSeen : State.reset.hdrSeen = false := rfl
@[simp] theorem reset_maxHead : State.reset.maxHead = none := rfl
@[simp] theorem reset_maxSector : State.reset.maxSector = none := rfl
@[simp] theorem reset_faultCause : State.reset.faultCause = .none := rfl
@[simp] theorem reset_chan : State.reset.chan = [] := rfl
@[simp] theorem reset_rst : State.reset.rst = false := rfl
@[simp] theorem reset_image : State.reset.image = [] := rfl
@[simp] theorem reset_sinkOpen : State.reset.sinkOpen = true := rfl
@[simp] theorem reset_out : State.reset.out = [] := rfl

@[simp] theorem writePayload_fsm (off : Option (BitVec 41)) (p : List Byte) (s : State) :
    (writePayload off p s).fsm = s.fsm := by cases off <;> rfl
@[simp] theorem writePayload_cnt (off : Option (BitVec 41)) (p : List Byte) (s : State) :
    (writePayload off p s).cnt = s.cnt := by cases off <;> rfl
@[simp] theorem writePayload_fbuf (off : Option (BitVec 41)) (p : List Byte) (s : State) :
    (writePayload off p s).fbuf = s.fbuf := by cases off <;> rfl
@[simp] theorem writePayload_crcAcc (off : Option (BitVec 41)) (p : List Byte) (s : State) :
    (writePayload off p s).crcAcc = s.crcAcc := by cases off <;> rfl
@[simp] theorem writePayload_hdrSeen (off : Option (BitVec 41)) (p : List Byte) (s : State) :
    (writePayload off p s).hdrSeen = s.hdrSeen := by cases off <;> rfl
@[simp] theorem writePayload_maxHead (off : Option (BitVec 41)) (p : List Byte) (s : State) :
    (writePayload off p s).maxHead = s.maxHead := by cases off <;> rfl
@[simp] theorem writePayload_maxSector (off : Option (BitVec 41)) (p : List Byte) (s : State) :
    (writePayload off p s).maxSector = s.maxSector := by cases off <;> rfl
@[simp] theorem writePayload_faultCause (off : Option (BitVec 41)) (p : List Byte) (s : State) :
    (writePayload off p s).faultCause = s.faultCause := by cases off <;> rfl
@[simp] theorem writePayload_chan (off : Option (BitVec 41)) (p : List Byte) (s : State) :
    (writePayload off p s).chan = s.chan := by cases off <;> rfl
@[simp] theorem writePayload_rst (off : Option (BitVec 41)) (p : List Byte) (s : State) :
    (writePayload off p s).rst = s.rst := by cases off <;> rfl
@[simp] theorem writePayload_sinkOpen (off : Option (BitVec 41)) (p : List Byte) (s : State) :
    (writePayload off p s).sinkOpen = s.sinkOpen := by cases off <;> rfl
@[simp] theorem writePayload_none (p : List Byte) (s : State) : writePayload none p s = s := rfl
@[simp] theorem writePayload_some (o : BitVec 41) (p : List Byte) (s : State) :
    writePayload (some o) p s = s.sinkWrite o p := rfl

@[simp] theorem bufferSet_bytes (i : Nat) (b : Byte) (f : FrameBuffer) : (bufferSet i b f).bytes = f.bytes.set i b := rfl
@[simp] theorem bufferLoad_bytes (bs : List Byte) (f : FrameBuffer) :
    (bufferLoad bs f).bytes = (bs ++ f.bytes.drop bs.length).take 520 := rfl
theorem crcAfter_of_lt {n k : Nat} {b : Byte} {c : Half} (h : k < n) : crcAfter n k b c = crc16Update c b := if_pos h
theorem crcAfter_of_le {n k : Nat} {b : Byte} {c : Half} (h : n ≤ k) : crcAfter n k b c = c := if_neg (by omega)
@[simp] theorem FrameBuffer.length_bytes (f : FrameBuffer) : f.bytes.length = 520 := f.size

end Sys2Proof.Machine
end

