-- ==== Sys2Proof/Laws/Exec.lean ====
section
/-! SUPPORT. What each meaning and the run of a buffered frame answer, said once. -/

namespace Sys2Proof.Machine

theorem exec_hdr (st : Byte) (mc : Half) (mh ms : Byte) (crc : Half) (s : State) :
    exec (.hdr st mc mh ms crc) s =
      .next ((s.setGeometry mh ms).emit (.header (headerRecord st mc mh ms crc s))) := rfl

theorem exec_dat (st : Byte) (cy : Half) (hd sc : Byte) (pl : List Byte) (crc : Half) (s : State) :
    exec (.dat st cy hd sc pl crc) s =
      .next ((writePayload (dataOffset cy hd sc s) pl s).emit (.data (dataRecord st cy hd sc crc s))) := rfl

theorem exec_endOfTransfer (s : State) :
    exec .endOfTransfer s =
      .next { s.sinkClose.emit (.endOfTransfer (orderViol s)) with fsm := .done, cnt := 0#10 } := rfl

theorem dataOffset_of_not_written {cy : Half} {hd sc : Byte} {s : State} (h : written s sc = false) :
    dataOffset cy hd sc s = none := by
  simp [dataOffset, dataLba, h]

/-- The state after a whole header frame in the buffer was processed. -/
def headerDone (v : State) : State :=
  ((v.setGeometry v.head v.sect).emit
    (.header (headerRecord v.fstatus v.cyl v.head v.sect v.crcRxH v))).toAwaitTag

/-- The state after a whole data frame in the buffer was processed. -/
def dataDone (v : State) : State :=
  ((writePayload (dataOffset v.cyl v.head v.sect v) v.payload v).emit
    (.data (dataRecord v.fstatus v.cyl v.head v.sect v.crcRxD v))).toAwaitTag

/-- The state after a terminator was processed. -/
def endDone (v : State) : State :=
  { v.sinkClose.emit (.endOfTransfer (orderViol v)) with fsm := .done, cnt := 0#10 }

@[simp] theorem headerDone_fsm (v : State) : (headerDone v).fsm = .awaitTag := rfl
@[simp] theorem headerDone_cnt (v : State) : (headerDone v).cnt = 0#10 := rfl
@[simp] theorem headerDone_fbuf (v : State) : (headerDone v).fbuf = v.fbuf := rfl
@[simp] theorem headerDone_crcAcc (v : State) : (headerDone v).crcAcc = v.crcAcc := rfl
@[simp] theorem headerDone_hdrSeen (v : State) : (headerDone v).hdrSeen = true := rfl
@[simp] theorem headerDone_maxHead (v : State) : (headerDone v).maxHead = some v.head := rfl
@[simp] theorem headerDone_maxSector (v : State) : (headerDone v).maxSector = some v.sect := rfl
@[simp] theorem headerDone_faultCause (v : State) : (headerDone v).faultCause = v.faultCause := rfl
@[simp] theorem headerDone_chan (v : State) : (headerDone v).chan = v.chan := rfl
@[simp] theorem headerDone_rst (v : State) : (headerDone v).rst = v.rst := rfl
@[simp] theorem headerDone_sinkOpen (v : State) : (headerDone v).sinkOpen = v.sinkOpen := rfl

@[simp] theorem dataDone_fsm (v : State) : (dataDone v).fsm = .awaitTag := by simp [dataDone]
@[simp] theorem dataDone_cnt (v : State) : (dataDone v).cnt = 0#10 := by simp [dataDone]
@[simp] theorem dataDone_fbuf (v : State) : (dataDone v).fbuf = v.fbuf := by simp [dataDone]
@[simp] theorem dataDone_crcAcc (v : State) : (dataDone v).crcAcc = v.crcAcc := by simp [dataDone]
@[simp] theorem dataDone_hdrSeen (v : State) : (dataDone v).hdrSeen = v.hdrSeen := by simp [dataDone]
@[simp] theorem dataDone_maxHead (v : State) : (dataDone v).maxHead = v.maxHead := by simp [dataDone]
@[simp] theorem dataDone_maxSector (v : State) : (dataDone v).maxSector = v.maxSector := by simp [dataDone]
@[simp] theorem dataDone_faultCause (v : State) : (dataDone v).faultCause = v.faultCause := by simp [dataDone]
@[simp] theorem dataDone_chan (v : State) : (dataDone v).chan = v.chan := by simp [dataDone]
@[simp] theorem dataDone_rst (v : State) : (dataDone v).rst = v.rst := by simp [dataDone]
@[simp] theorem dataDone_sinkOpen (v : State) : (dataDone v).sinkOpen = v.sinkOpen := by simp [dataDone]

@[simp] theorem endDone_fsm (v : State) : (endDone v).fsm = .done := rfl
@[simp] theorem endDone_cnt (v : State) : (endDone v).cnt = 0#10 := rfl
@[simp] theorem endDone_fbuf (v : State) : (endDone v).fbuf = v.fbuf := rfl
@[simp] theorem endDone_crcAcc (v : State) : (endDone v).crcAcc = v.crcAcc := rfl
@[simp] theorem endDone_hdrSeen (v : State) : (endDone v).hdrSeen = v.hdrSeen := rfl
@[simp] theorem endDone_maxHead (v : State) : (endDone v).maxHead = v.maxHead := rfl
@[simp] theorem endDone_maxSector (v : State) : (endDone v).maxSector = v.maxSector := rfl
@[simp] theorem endDone_faultCause (v : State) : (endDone v).faultCause = v.faultCause := rfl
@[simp] theorem endDone_chan (v : State) : (endDone v).chan = v.chan := rfl
@[simp] theorem endDone_rst (v : State) : (endDone v).rst = v.rst := rfl
@[simp] theorem endDone_sinkOpen (v : State) : (endDone v).sinkOpen = false := rfl

@[simp] theorem headerDone_image (v : State) : (headerDone v).image = v.image := rfl
@[simp] theorem headerDone_out (v : State) : (headerDone v).out =
    v.out ++ [.event (.header (headerRecord v.fstatus v.cyl v.head v.sect v.crcRxH v))] := rfl
@[simp] theorem endDone_image (v : State) : (endDone v).image = v.image := rfl
@[simp] theorem endDone_out (v : State) : (endDone v).out =
    v.out ++ [.sink .close, .event (.endOfTransfer (orderViol v))] := by
  show (v.out ++ [_]) ++ [_] = _
  rw [List.append_assoc]
  rfl

/-- The outputs and the image after a data frame, by whether it has an offset. -/
theorem dataDone_cases (v : State) :
    (dataOffset v.cyl v.head v.sect v = none ∧ (dataDone v).image = v.image ∧
      (dataDone v).out = v.out ++ [.event (.data (dataRecord v.fstatus v.cyl v.head v.sect v.crcRxD v))]) ∨
    ∃ o, dataOffset v.cyl v.head v.sect v = some o ∧
      (dataDone v).image = Memory.write o.toNat v.payload v.image ∧
      (dataDone v).out = v.out ++ [.sink (.write o v.payload),
        .event (.data (dataRecord v.fstatus v.cyl v.head v.sect v.crcRxD v))] := by
  cases ho : dataOffset v.cyl v.head v.sect v with
  | none => exact .inl ⟨rfl, by simp [dataDone, ho], by simp [dataDone, ho]⟩
  | some o => exact .inr ⟨o, rfl, by simp [dataDone, ho], by simp [dataDone, ho]⟩

theorem runFrame_header (v : State) : runFrame .header v = .next (headerDone v) := rfl
theorem runFrame_data (v : State) : runFrame .data v = .next (dataDone v) := rfl
theorem runFrame_terminator (v : State) : runFrame .terminator v = .next (endDone v) := rfl

end Sys2Proof.Machine
end

