-- ==== Sys2Proof/Laws/Memory.lean ====
section
/-! SUPPORT. Image memory: reading after writing, and the canonical form that every memory operation keeps. -/

namespace Sys2Proof.Machine

theorem blockCells_mem {data : List Byte} {a : Nat} {c : Host.Cell} (h : c ∈ blockCells a data) :
    a ≤ c.1 ∧ c.1 < a + data.length := by
  induction data generalizing a with
  | nil => simp [blockCells] at h
  | cons b bs ih =>
    simp only [blockCells, List.mem_cons] at h
    simp only [List.length_cons]
    rcases h with rfl | h
    · exact ⟨Nat.le_refl _, by omega⟩
    · have := ih h; omega

theorem blockCells_pairwise (data : List Byte) (a : Nat) : (blockCells a data).Pairwise (fun x y => x.1 < y.1) := by
  induction data generalizing a with
  | nil => exact List.Pairwise.nil
  | cons b bs ih =>
    refine List.Pairwise.cons (fun c hc => ?_) (ih (a + 1))
    have := blockCells_mem hc
    show a < c.1
    omega

/-- A write within the address space keeps the canonical form. -/
theorem Memory.write_wf {m : Memory} {a : Nat} {data : List Byte} (hm : Memory.wf m)
    (ha : a + data.length ≤ Config.imageLimit) : Memory.wf (Memory.write a data m) := by
  obtain ⟨hp, hb⟩ := hm
  refine ⟨?_, ?_⟩
  · unfold Memory.write
    rw [List.pairwise_append, List.pairwise_append]
    refine ⟨⟨hp.filter _, blockCells_pairwise data a, fun x hx y hy => ?_⟩, hp.filter _, fun x hx y hy => ?_⟩
    · have h1 := List.mem_filter.1 hx
      have h2 := blockCells_mem hy
      simp only [decide_eq_true_eq] at h1
      omega
    · have h2 := List.mem_filter.1 hy
      simp only [decide_eq_true_eq] at h2
      rcases List.mem_append.1 hx with h1 | h1
      · have h1 := List.mem_filter.1 h1
        simp only [decide_eq_true_eq] at h1
        omega
      · have h1 := blockCells_mem h1
        omega
  · intro c hc
    unfold Memory.write at hc
    rcases List.mem_append.1 hc with hc | hc
    · rcases List.mem_append.1 hc with hc | hc
      · exact hb c (List.mem_filter.1 hc).1
      · have := blockCells_mem hc; omega
    · exact hb c (List.mem_filter.1 hc).1

/-- Cells at other offsets do not matter to a read. -/
theorem read_filter_keep {p : Host.Cell → Bool} {m : Memory} {x : Nat} (h : ∀ c ∈ m, c.1 = x → p c = true) :
    Memory.read (m.filter p) x = Memory.read m x := by
  unfold Memory.read
  induction m with
  | nil => rfl
  | cons c m ih =>
    obtain ⟨k, v⟩ := c
    have ih' := ih fun d hd => h d (List.mem_cons_of_mem _ hd)
    by_cases hk : k = x
    · subst hk
      have := h (k, v) (List.mem_cons_self ..) rfl
      simp [this, List.lookup]
    · have hk' : (x == k) = false := by simpa using fun e : x = k => hk e.symm
      by_cases hp : p (k, v)
      · simp [hp, List.lookup, hk', ih']
      · simp [hp, List.lookup, hk', ih']

/-- A read of an offset no cell has finds nothing. -/
theorem read_absent {m : Memory} {x : Nat} (h : ∀ c ∈ m, c.1 ≠ x) : Memory.read m x = none := by
  unfold Memory.read
  rw [List.lookup_eq_none_iff]
  intro c hc
  simpa using fun e : x = c.1 => h c hc e.symm

theorem read_append (m n : Memory) (x : Nat) : Memory.read (m ++ n) x = (Memory.read m x).or (Memory.read n x) := by
  simp [Memory.read, List.lookup_append]

theorem read_blockCells {data : List Byte} {a j : Nat} : Memory.read (blockCells a data) (a + j) = data[j]? := by
  induction data generalizing a j with
  | nil => rfl
  | cons b bs ih =>
    cases j with
    | zero => simp [Memory.read, blockCells]
    | succ j =>
      have hne : (a + (j + 1) == a) = false := by simp
      have := ih (a := a + 1) (j := j)
      have e : a + 1 + j = a + (j + 1) := by omega
      rw [e] at this
      simpa [Memory.read, blockCells, List.lookup, hne] using this

/-- A read inside a block just written gives the byte written there (R45). -/
theorem Memory.read_write_inside {m : Memory} {a j : Nat} {data : List Byte} (hj : j < data.length) :
    Memory.read (Memory.write a data m) (a + j) = data[j]? := by
  unfold Memory.write
  rw [read_append, read_append, read_blockCells, read_absent (m := m.filter fun c => decide (c.1 < a))]
  · rw [List.getElem?_eq_getElem hj]; rfl
  · intro c hc
    have h1 := (List.mem_filter.1 hc).2
    simp only [decide_eq_true_eq] at h1
    omega

/-- A read outside a block just written gives what it gave before. -/
theorem Memory.read_write_outside {m : Memory} {a x : Nat} {data : List Byte} (hx : ¬(a ≤ x ∧ x < a + data.length)) :
    Memory.read (Memory.write a data m) x = Memory.read m x := by
  have hblock : Memory.read (blockCells a data) x = none :=
    read_absent fun c hc e => hx (e ▸ blockCells_mem hc)
  unfold Memory.write
  rw [read_append, read_append, hblock, Option.or_none]
  by_cases hlt : x < a
  · rw [read_filter_keep (x := x) fun c _ e => by simp [e, hlt]]
    rw [read_absent (m := m.filter fun c => decide (a + data.length ≤ c.1)), Option.or_none]
    intro c hc e
    have h1 := (List.mem_filter.1 hc).2
    simp only [decide_eq_true_eq] at h1
    omega
  · rw [read_absent (m := m.filter fun c => decide (c.1 < a)), Option.none_or]
    · exact read_filter_keep fun c _ e => by
        simp only [decide_eq_true_eq]
        omega
    · intro c hc e
      have h1 := (List.mem_filter.1 hc).2
      simp only [decide_eq_true_eq] at h1
      omega

end Sys2Proof.Machine
end

