-- ==== Sys2Proof/Laws/PerInstr.lean ====
section
/-! SUPPORT. The statements made of every instruction as syntax, one lemma per constructor of Instr. -/

namespace Sys2Proof.Laws.FrameLength

/-- A well-formed frame is as long on the wire as its shape's fixed length, and its first byte is the tag of its shape
(spec/30_encoding.md R60, R64, R65). -/
def Statement (i : Instr) : Prop :=
  i.wf = true → (encode i).length = i.shape.len ∧ shapeOfTag (byteAt (encode i) 0) = some i.shape

theorem hdr (status : Byte) (maxCylinder : Half) (maxHead maxSector : Byte) (crcRx : Half) :
    Statement (.hdr status maxCylinder maxHead maxSector crcRx) := fun _ => ⟨rfl, rfl⟩

theorem dat (status : Byte) (cylinder : Half) (head sector : Byte) (payload : List Byte) (crcRx : Half) :
    Statement (.dat status cylinder head sector payload crcRx) := by
  intro h
  have h : payload.length = 512 := by simpa [Instr.wf] using h
  exact ⟨by simp [encode, Instr.shape, FrameShape.len, h], rfl⟩

theorem endOfTransfer : Statement .endOfTransfer := fun _ => ⟨rfl, rfl⟩

end Sys2Proof.Laws.FrameLength
end

