-- ==== Sys2Proof/Laws/Step.lean ====
section
/-! SUPPORT. Everything a step can do, said once: `step_cases` gives one case per row of the transition table (R120),
the reset (R210) and waiting (R123). -/

namespace Sys2Proof.Machine

/-- The ways a step leads from `s` to a next state. -/
inductive StepCase (s : State) : State → Prop
  | reset (hr : s.rst = true) : StepCase s s.applyReset
  | wait (hr : s.rst = false) (hf : s.inReady = true) (hc : s.chan = []) : StepCase s s
  | tag (sh : FrameShape) (b : Byte) (rest : List Symbol) (hr : s.rst = false) (hf : s.fsm = .awaitTag)
      (hc : s.chan = .byte b :: rest) (ht : shapeOfTag b = some sh) (hs : sh ≠ .terminator) :
      StepCase s ((takeTag b (s.afterSymbol rest)).enter sh)
  | terminator (b : Byte) (rest : List Symbol) (hr : s.rst = false) (hf : s.fsm = .awaitTag)
      (hc : s.chan = .byte b :: rest) (ht : shapeOfTag b = some .terminator) :
      StepCase s (endDone (takeTag b (s.afterSymbol rest)))
  | illegal (b : Byte) (rest : List Symbol) (hr : s.rst = false) (hf : s.fsm = .awaitTag)
      (hc : s.chan = .byte b :: rest) (ht : shapeOfTag b = none) :
      StepCase s ((takeTag b (s.afterSymbol rest)).raiseFault .unknownTag)
  | stop (sym : Symbol) (rest : List Symbol) (hr : s.rst = false) (hf : s.inReady = true)
      (hc : s.chan = sym :: rest) (hs : sym = .eos ∨ sym = .err) :
      StepCase s ((s.afterSymbol rest).raiseFault (endCause sym))
  | byte (sh : FrameShape) (b : Byte) (rest : List Symbol) (hr : s.rst = false) (hs : sh ≠ .terminator)
      (hf : s.fsm = collectingState sh) (hc : s.chan = .byte b :: rest) (h1 : 1 ≤ s.cnt.toNat)
      (h2 : s.cnt.toNat + 1 < sh.len) : StepCase s (takeByte sh b (s.afterSymbol rest))
  | header (b : Byte) (rest : List Symbol) (hr : s.rst = false) (hf : s.fsm = .procHeader)
      (hc : s.chan = .byte b :: rest) (hn : s.cnt.toNat = 7) :
      StepCase s (headerDone (takeByte .header b (s.afterSymbol rest)))
  | data (b : Byte) (rest : List Symbol) (hr : s.rst = false) (hf : s.fsm = .procData)
      (hc : s.chan = .byte b :: rest) (hn : s.cnt.toNat = 519) :
      StepCase s (dataDone (takeByte .data b (s.afterSymbol rest)))

theorem collect_cases {sh : FrameShape} {s t : State} (hs : sh ≠ .terminator) (hr : s.rst = false)
    (hf : s.fsm = collectingState sh) (h : consume (collect sh) s = .next t) : StepCase s t := by
  have hready : s.inReady = true := by
    unfold State.inReady
    rw [hf]
    cases sh <;> rfl
  unfold consume at h
  cases hc : s.chan with
  | nil =>
    simp only [hc] at h
    cases h
    exact .wait hr hready hc
  | cons sym rest =>
    simp only [hc] at h
    cases sym with
    | eos => cases h; exact .stop .eos rest hr hready hc (.inl rfl)
    | err => cases h; exact .stop .err rest hr hready hc (.inr rfl)
    | byte b =>
      simp only [collect, collectByte] at h
      split at h
      · rename_i hpre
        split at h
        · rename_i hlast
          cases sh with
          | header =>
            rw [runFrame_header] at h
            cases h
            exact .header b rest hr hf hc (by simp at hlast; omega)
          | data =>
            rw [runFrame_data] at h
            cases h
            exact .data b rest hr hf hc (by simp at hlast; omega)
          | terminator => exact absurd rfl hs
        · rename_i hlast
          cases h
          simp only [afterSymbol_cnt] at hpre hlast
          exact .byte sh b rest hr hs hf hc hpre.1 (by omega)
      · cases h

theorem awaitTag_cases {s t : State} (hr : s.rst = false) (hf : s.fsm = .awaitTag)
    (h : consume awaitTag s = .next t) : StepCase s t := by
  have hready : s.inReady = true := by unfold State.inReady; rw [hf]
  unfold consume at h
  cases hc : s.chan with
  | nil =>
    simp only [hc] at h
    cases h
    exact .wait hr hready hc
  | cons sym rest =>
    simp only [hc] at h
    cases sym with
    | eos => cases h; exact .stop .eos rest hr hready hc (.inl rfl)
    | err => cases h; exact .stop .err rest hr hready hc (.inr rfl)
    | byte b =>
      simp only [awaitTag, awaitTagByte] at h
      split at h
      · cases h; exact .tag .header b rest hr hf hc ‹_› (by decide)
      · cases h; exact .tag .data b rest hr hf hc ‹_› (by decide)
      · rw [runFrame_terminator] at h
        cases h
        exact .terminator b rest hr hf hc ‹_›
      · cases h; exact .illegal b rest hr hf hc ‹_›

/-- The inversion of `step`. -/
theorem step_cases {s t : State} (h : step s = .next t) : StepCase s t := by
  unfold step fsmStep at h
  split at h
  · cases h; exact .reset ‹_›
  · rename_i hr
    have hr : s.rst = false := by simpa using hr
    split at h
    · exact awaitTag_cases hr ‹_› h
    · exact collect_cases (sh := .header) (by decide) hr ‹_› h
    · exact collect_cases (sh := .data) (by decide) hr ‹_› h
    · cases h
    · cases h

/-- A waiting engine that a byte inside a frame reaches, its precondition met, goes on to collect or to complete. -/
theorem step_collect {s : State} {sh : FrameShape} {b : Byte} {rest : List Symbol} (hs : sh ≠ .terminator)
    (hr : s.rst = false) (hf : s.fsm = collectingState sh) (hc : s.chan = .byte b :: rest) :
    step s = collectByte sh b (s.afterSymbol rest) := by
  cases sh with
  | header => simp only [collectingState] at hf; simp [step, fsmStep, hr, hf, consume, hc, collect]
  | data => simp only [collectingState] at hf; simp [step, fsmStep, hr, hf, consume, hc, collect]
  | terminator => exact absurd rfl hs

theorem step_awaitTag {s : State} {b : Byte} {rest : List Symbol} (hr : s.rst = false) (hf : s.fsm = .awaitTag)
    (hc : s.chan = .byte b :: rest) : step s = awaitTagByte b (s.afterSymbol rest) := by
  simp [step, fsmStep, hr, hf, consume, hc, awaitTag]

end Sys2Proof.Machine
end

