-- ==== Sys2Proof/Tests/Slice0.lean ====
section
/-! SUPPORT. Tests whose expected values come from the spec (spec/95_test_vectors.md and the layout tables), the
WellFormed smoke test, and for every statement with hypotheses a witness that meets them. -/

-- One theorem after another: the kernel evaluations below want much stack, and not many at once.
set_option Elab.async false

open Sys2Proof Sys2Proof.Machine

namespace Sys2Proof.Tests

/-! ## Helpers -/

/-- The next state of an outcome, if it is one. -/
def nextOf : Host.Outcome State Fault Refusal → Option State
  | .next t => some t
  | .fault _ => none
  | .refused _ => none

/-- The next state, or the state after reset where there is none. -/
def nextD (o : Host.Outcome State Fault Refusal) : State := (nextOf o).getD State.reset

theorem eq_next_of_isSome {o : Host.Outcome State Fault Refusal} (h : (nextOf o).isSome = true) : o = .next (nextD o) := by
  cases o with
  | next t => rfl
  | fault r => simp [nextOf] at h
  | refused r => simp [nextOf] at h

/-- An engine that awaits a tag and is offered the symbols. -/
def offered (syms : List Symbol) : State := { State.reset with chan := syms }

/-- The bytes of V21 (`HDR 0, 1, 1, 2`). -/
def v21 : List Byte := [0x00#8, 0x00#8, 0x01#8, 0x00#8, 0x01#8, 0x02#8, 0xC7#8, 0x65#8]

/-- The bytes of the data frame of V54 (`DAT 0, 1, 0, 2, fill(5)`, checksum 0x1C99). -/
def v54 : List Byte :=
  [0x01#8, 0x00#8, 0x01#8, 0x00#8, 0x00#8, 0x02#8] ++ List.replicate 512 0x05#8 ++ [0x99#8, 0x1C#8]

/-- The geometry of V21 stored. -/
def withGeometry (s : State) : State := { s with hdrSeen := true, maxHead := some 1#8, maxSector := some 2#8 }

/-- V37: seven bytes of V21 collected, the last one offered. -/
def headerLast : State :=
  { offered [.byte 0x65#8] with
    fsm := .procHeader
    cnt := 7#10
    fbuf := bufferLoad (v21.take 7) State.reset.fbuf
    crcAcc := 0x65C7#16 }

/-- The frame of V54 collected but for its last byte, which is offered, under the geometry of V21. -/
def dataLast : State :=
  { withGeometry (offered [.byte 0x1C#8]) with
    fsm := .procData
    cnt := 519#10
    fbuf := bufferLoad (v54.take 519) State.reset.fbuf
    crcAcc := 0x1C99#16 }

/-- A stopped engine. -/
def stopped (f : FsmState) : State := { offered [.byte 0x00#8] with fsm := f }

/-! ## The WellFormed check refuses what is no frame -/

theorem test_wf_refuses_short_payload :
    (Instr.dat 0#8 0#16 0#8 1#8 (List.replicate 511 0#8) 0#16).wf = false := by decide +kernel

theorem test_wf_refuses_long_payload :
    (Instr.dat 0#8 0#16 0#8 1#8 (List.replicate 513 0#8) 0#16).wf = false := by decide +kernel

/-! ## Decoding: words written out from the layouts of R61, R62, R63 -/

theorem test_decode_hdr_V24 :
    decode [0x00#8, 0x01#8, 0x34#8, 0x12#8, 0x56#8, 0x78#8, 0xCC#8, 0x3A#8]
      = .ok (.hdr 0x01#8 0x1234#16 0x56#8 0x78#8 0x3ACC#16, []) := by rfl

theorem test_decode_dat_V54 :
    decode v54 = .ok (.dat 0x00#8 0x0001#16 0x00#8 0x02#8 (List.replicate 512 0x05#8) 0x1C99#16, []) := by
  decide +kernel

theorem test_decode_end_V26 : decode [0xFF#8] = .ok (.endOfTransfer, []) := by rfl

theorem test_decode_illegal_tag : decode [0x02#8, 0x00#8] = .error (.unknownTag 0x02#8) := by rfl

theorem test_decode_truncated : decode [0x00#8, 0x00#8] = .error (.truncated .header 2) := by rfl

theorem test_decodeTableWord_hdr :
    decodeTableWord 64 0x65C7020100010000 = some (.hdr 0#8 1#16 1#8 2#8 0x65C7#16) := by decide +kernel

theorem test_decodeTableWord_dat_short_word :
    decodeTableWord 8 0x01 = some (.dat 0#8 0#16 0#8 0#8 (List.replicate 512 0#8) 0#16) := by decide +kernel

theorem test_decodeTableWord_end : decodeTableWord 8 0xFF = some .endOfTransfer := by decide +kernel

/-! ## Checksum: V10, V15, V17 to V19, V20, V22, R98 -/

theorem test_crc_V10 :
    crc16 [0x31#8, 0x32#8, 0x33#8, 0x34#8, 0x35#8, 0x36#8, 0x37#8, 0x38#8, 0x39#8] = 0x31C3#16 := by decide +kernel

theorem test_crc_V15 : crc16 [0x01#8, 0x00#8, 0x00#8, 0x00#8] = 0x76B4#16 := by decide +kernel

theorem test_crc_V18 : crc16 (List.replicate 518 0xFF#8) = 0x9775#16 := by decide +kernel

theorem test_encode_V20 :
    encodeHeader 0#8 0#16 0#8 1#8 = [0x00#8, 0x00#8, 0x00#8, 0x00#8, 0x00#8, 0x01#8, 0x21#8, 0x10#8] := by
  decide +kernel

theorem test_encode_V22 :
    encodeData 0#8 0#16 0#8 1#8 (fill 0#8)
      = [0x01#8, 0x00#8, 0x00#8, 0x00#8, 0x00#8, 0x01#8] ++ List.replicate 512 0x00#8 ++ [0x84#8, 0xE8#8] := by
  decide +kernel

theorem test_crc_residue_R98 : crc16 (encodeHeader 0#8 0#16 0#8 1#8) = 0x10D6#16 := by decide +kernel

/-! ## Mapper: V42, V45, V48 -/

theorem test_lba_V42 :
    lba 255#8 255#8 65535#16 255#8 255#8 = some 0xFEFFFFFF#32 ∧ offset 0xFEFFFFFF#32 = 0x1FDFFFFFE00#41 := by decide

theorem test_lba_V45 : lba 15#8 63#8 1#16 2#8 3#8 = some 1136#32 := by decide

theorem test_lba_V48 : lba 1#8 0#8 0#16 0#8 1#8 = none ∧ lba 1#8 2#8 1#16 0#8 0#8 = none := by decide

/-! ## Frame operations: V37, V50, V54, V55, P5 -/

theorem test_step_V37 :
    (nextD (step headerLast)).registers =
      { headerLast.registers with
        fsm := .awaitTag, cnt := 0#10, hdrSeen := true, maxHead := some 1#8, maxSector := some 2#8,
        fbuf := bufferLoad v21 State.reset.fbuf } := by decide +kernel

theorem test_hdr_V50 :
    (nextD (exec (.hdr 0#8 1#16 1#8 2#8 0xFFFF#16) headerLast)).out = [.event (.header
      { status := 0#8, maxCylinder := 1#16, maxHead := 1#8, maxSector := 2#8, crcRx := 0xFFFF#16,
        crcCalc := 0x65C7#16, crcOk := false, devErr := false, repeated := false })] := by decide +kernel

theorem test_dat_V54 :
    (nextD (step dataLast)).out = [.sink (.write 2560#41 (List.replicate 512 0x05#8)), .event (.data
      { status := 0#8, cylinder := 1#16, head := 0#8, sector := 2#8, crcRx := 0x1C99#16, crcCalc := 0x1C99#16,
        crcOk := true, devErr := false, good := true, orderViol := false, lbaUndef := false, written := true,
        lba := some 5#32, offset := some 2560#41 })] := by decide +kernel

theorem test_dat_image_V54 :
    Memory.read (nextD (step dataLast)).image 2560 = some 0x05#8 ∧
    Memory.read (nextD (step dataLast)).image 3071 = some 0x05#8 ∧
    Memory.read (nextD (step dataLast)).image 2559 = none ∧
    Memory.read (nextD (step dataLast)).image 3072 = none := by decide +kernel

theorem test_end_P5 :
    (nextD (step (offered [.byte 0xFF#8, .byte 0x00#8]))).out = [.sink .close, .event (.endOfTransfer true)] ∧
    (nextD (step (offered [.byte 0xFF#8, .byte 0x00#8]))).crcAcc = 0x1EF0#16 ∧
    (nextD (step (offered [.byte 0xFF#8, .byte 0x00#8]))).fsm = .done := by decide +kernel

/-! ## Steps: V33, V35, V38, P6 -/

theorem test_step_V33 :
    (nextD (step (offered [.byte 0x02#8]))).out = [.event (.fault .unknownTag 0x02#8 1#10)] ∧
    (nextD (step (offered [.byte 0x02#8]))).crcAcc = 0x2042#16 ∧
    (nextD (step (offered [.byte 0x02#8]))).cnt = 1#10 := by decide +kernel

theorem test_step_V35 :
    (nextD (step { headerLast with cnt := 5#10, crcAcc := 0x2711#16, chan := [.byte 0x02#8] })).crcAcc = 0x65C7#16 := by
  decide +kernel

theorem test_step_V38 :
    (nextD (step { dataLast with cnt := 300#10, chan := [.eos] })).out = [.event (.fault .truncated 0x01#8 300#10)] := by
  decide +kernel

theorem test_step_empty_stream_P6 :
    (nextD (step (offered [.eos]))).faultCause = .truncated ∧ (nextD (step (offered [.eos]))).cnt = 0#10 := by
  decide +kernel

/-! ## Instructions placed for the next step -/

theorem test_withFetchWord_hdr :
    (nextD (step (State.reset.withFetchWord 64 0x65C7020100010000))).maxSector = some 2#8 := by decide +kernel

theorem test_withFetchWord_dat :
    (nextD (step (State.reset.withFetchWord 8 0x01))).out.length = 1 := by decide +kernel

theorem test_withFetchWord_end : (nextD (step (State.reset.withFetchWord 8 0xFF))).fsm = .done := by decide +kernel

/-! ## Witnesses: for every statement with hypotheses, values that meet them -/

theorem reset_inv : Inv State.reset :=
  ⟨rfl, by decide, trivial, trivial, rfl, rfl, by decide⟩

theorem offered_inv (syms : List Symbol) : Inv (offered syms) :=
  ⟨rfl, ⟨fun h => absurd rfl h, fun h => nomatch h⟩, trivial, trivial, rfl, rfl, (by decide : Memory.wf [])⟩

theorem headerLast_inv : Inv headerLast := by
  refine ⟨?_, by decide, ?_, ?_, rfl, rfl, by decide⟩
  · show 1 ≤ headerLast.cnt.toNat ∧ headerLast.cnt.toNat ≤ 7
    decide
  · show headerLast.tag = Config.tagHdr
    decide +kernel
  · show headerLast.crcAcc = crc16 (headerLast.fbuf.bytes.take (min headerLast.cnt.toNat (Config.hdrLen - 2)))
    decide +kernel

theorem dataLast_inv : Inv dataLast := by
  refine ⟨?_, by decide, ?_, ?_, rfl, rfl, by decide⟩
  · show 1 ≤ dataLast.cnt.toNat ∧ dataLast.cnt.toNat ≤ 519
    decide
  · show dataLast.tag = Config.tagDat
    decide +kernel
  · show dataLast.crcAcc = crc16 (dataLast.fbuf.bytes.take (min dataLast.cnt.toNat (Config.datLen - 2)))
    decide +kernel

theorem step_headerLast : step headerLast = .next (nextD (step headerLast)) :=
  eq_next_of_isSome (by decide +kernel)

theorem step_dataLast : step dataLast = .next (nextD (step dataLast)) := eq_next_of_isSome (by decide +kernel)

theorem witness_DecodeReadsBackEveryEncodedFrame :
    (Instr.hdr 255#8 65535#16 255#8 255#8 65535#16).wf = true ∧
    (Instr.dat 1#8 2#16 3#8 4#8 (List.replicate 512 5#8) 6#16).wf = true ∧ Instr.endOfTransfer.wf = true := by
  decide +kernel

theorem witness_EncodeWritesBackEveryDecodedFrame :
    (∃ i rest, decode (v21 ++ [0xAA#8]) = .ok (i, rest)) ∧ (∃ i rest, decode (v54 ++ [0xAA#8]) = .ok (i, rest)) ∧
    ∃ i rest, decode [0xFF#8, 0xAA#8] = .ok (i, rest) := by
  refine ⟨⟨.hdr 0#8 1#16 1#8 2#8 0x65C7#16, [0xAA#8], by decide +kernel⟩,
    ⟨.dat 0#8 1#16 0#8 2#8 (List.replicate 512 5#8) 0x1C99#16, [0xAA#8], by decide +kernel⟩,
    ⟨.endOfTransfer, [0xAA#8], by decide +kernel⟩⟩

theorem witness_SentFramesDecodeToTheirFieldsWithGoodChecksum : (fill 7#8).length = 512 := by decide +kernel

theorem witness_ChecksumIsLinear : ([1#8, 2#8] : List Byte).length = ([3#8, 4#8] : List Byte).length := by decide

theorem witness_AnySingleFlippedBitIsDetected_header :
    v21.length = 8 ∧ 0 < v21.length ∧ 7 < v21.length ∧ 7 < 8 ∧ (decodeHeaderVerdict v21).crcOk = true := by
  decide +kernel

theorem witness_AnySingleFlippedBitIsDetected_data :
    v54.length = 520 ∧ 519 < v54.length ∧ 7 < 8 ∧ (decodeDataVerdict v54).crcOk = true := by decide +kernel

theorem witness_LbaAndOffsetAreExact : (1#8 : Byte) ≠ 0#8 ∧ (255#8 : Byte) ≠ 0#8 := by decide

theorem witness_LbaAndOffsetStayWithinTheirWidths :
    lba 255#8 255#8 65535#16 255#8 255#8 = some 0xFEFFFFFF#32 ∧ lba 0#8 1#8 0#16 0#8 1#8 = some 0#32 := by decide

theorem witness_MapperIsABijectionInTheSendersOrder :
    ∃ (mh ms : Byte) (c c' : Half) (h h' s s' : Byte), h.toNat ≤ mh.toNat ∧ h'.toNat ≤ mh.toNat ∧
      1 ≤ s.toNat ∧ s.toNat ≤ ms.toNat ∧ 1 ≤ s'.toNat ∧ s'.toNat ≤ ms.toNat ∧
      (c.toNat < c'.toNat ∨ c = c' ∧ (h.toNat < h'.toNat ∨ h = h' ∧ s.toNat < s'.toNat)) :=
  ⟨255#8, 255#8, 0#16, 65535#16, 255#8, 0#8, 255#8, 1#8, by decide⟩

theorem witness_MapperIsABijectionInTheSendersOrder_sector_and_head :
    ((0#16 : Half) = 0#16 ∧ (0#8 : Byte) = 0#8 ∧ (1#8 : Byte).toNat < (2#8 : Byte).toNat) ∧
    ((0#16 : Half) = 0#16 ∧ (0#8 : Byte).toNat < (1#8 : Byte).toNat) := by decide

theorem witness_HeaderOperationFrame :
    ∃ t, exec (.hdr 0#8 1#16 1#8 2#8 0x65C7#16) headerLast = .next t := ⟨_, exec_hdr ..⟩

theorem witness_DataOperationWritesItsBlock :
    (fill 5#8).length = 512 ∧ dataLast.hdrSeen = true ∧ dataLast.maxHead = some 1#8 ∧
    dataLast.maxSector = some 2#8 ∧ (2#8 : Byte) ≠ 0#8 ∧ (1#8 : Byte) ≠ 0#8 := by decide +kernel

theorem witness_DataBeforeAnyHeaderIsReportedAndDropped : State.reset.hdrSeen = false := rfl

theorem witness_DataWithoutAnLbaIsReportedAndDropped_sector_zero :
    dataLast.hdrSeen = true ∧ dataLast.maxSector = some 2#8 ∧ ((2#8 : Byte) = 0#8 ∨ (0#8 : Byte) = 0#8) := by decide

theorem witness_DataWithoutAnLbaIsReportedAndDropped_max_sector_zero :
    ∃ s : State, s.hdrSeen = true ∧ s.maxSector = some 0#8 ∧ ((0#8 : Byte) = 0#8 ∨ (1#8 : Byte) = 0#8) :=
  ⟨{ dataLast with maxSector := some 0#8 }, by decide⟩

theorem witness_DataOperationFrame_written :
    (fill 5#8).length = 512 ∧ (∃ t, exec (.dat 0#8 1#16 0#8 2#8 (fill 5#8) 0#16) dataLast = .next t) ∧
    dataOffset 1#16 0#8 2#8 dataLast = some 2560#41 ∧ ¬((2560#41).toNat ≤ 3072 ∧ 3072 < (2560#41).toNat + 512) :=
  ⟨by decide +kernel, ⟨_, exec_dat ..⟩, by decide +kernel, by decide⟩

theorem witness_DataOperationFrame_not_written :
    (∃ t, exec (.dat 0#8 1#16 0#8 2#8 (fill 5#8) 0#16) State.reset = .next t) ∧
    dataOffset 1#16 0#8 2#8 State.reset = none := ⟨⟨_, exec_dat ..⟩, rfl⟩

theorem witness_StepRunsTheDecodedFrame_header :
    headerLast.rst = false ∧ headerLast.fsm = .procHeader ∧ headerLast.chan = [.byte 0x65#8] ∧
    headerLast.cnt.toNat + 1 = FrameShape.header.len ∧
    decode ((takeByte .header 0x65#8 (headerLast.afterSymbol [])).fbuf.bytes.take FrameShape.header.len)
      = .ok (.hdr 0#8 1#16 1#8 2#8 0x65C7#16, []) := by decide +kernel

theorem witness_StepRunsTheDecodedFrame_data :
    dataLast.rst = false ∧ dataLast.fsm = .procData ∧ dataLast.chan = [.byte 0x1C#8] ∧
    dataLast.cnt.toNat + 1 = FrameShape.data.len ∧
    decode ((takeByte .data 0x1C#8 (dataLast.afterSymbol [])).fbuf.bytes.take FrameShape.data.len)
      = .ok (.dat 0#8 1#16 0#8 2#8 (List.replicate 512 5#8) 0x1C99#16, []) := by decide +kernel

theorem witness_StepRunsTheDecodedFrame_terminator :
    (offered [.byte 0xFF#8]).rst = false ∧ (offered [.byte 0xFF#8]).fsm = .awaitTag ∧
    (offered [.byte 0xFF#8]).chan = [.byte 0xFF#8] ∧ decode [0xFF#8] = .ok (.endOfTransfer, []) := by decide +kernel

theorem witness_TagByteIsDispatched (b : Byte) :
    (offered [.byte b]).rst = false ∧ (offered [.byte b]).fsm = .awaitTag ∧
    (offered [.byte b]).chan = .byte b :: [] := ⟨rfl, rfl, rfl⟩

theorem witness_TagByteIsDispatched_illegal_ends :
    ((0x02#8 : Byte) ≠ 0x00#8 ∧ (0x02#8 : Byte) ≠ 0x01#8 ∧ (0x02#8 : Byte) ≠ 0xFF#8) ∧
    ((0xFE#8 : Byte) ≠ 0x00#8 ∧ (0xFE#8 : Byte) ≠ 0x01#8 ∧ (0xFE#8 : Byte) ≠ 0xFF#8) := by decide

theorem witness_CollectingStepStoresOneByte_header :
    (∀ s ∈ [{ headerLast with cnt := 1#10 }, { headerLast with cnt := 6#10 }],
      s.rst = false ∧ s.fsm = .procHeader ∧ s.chan = [.byte 0x65#8] ∧ 1 ≤ s.cnt.toNat ∧
        s.cnt.toNat + 1 < FrameShape.header.len) := by decide

theorem witness_CollectingStepStoresOneByte_data :
    (∀ s ∈ [{ dataLast with cnt := 1#10 }, { dataLast with cnt := 518#10 }],
      s.rst = false ∧ s.fsm = .procData ∧ s.chan = [.byte 0x1C#8] ∧ 1 ≤ s.cnt.toNat ∧
        s.cnt.toNat + 1 < FrameShape.data.len) := by decide

theorem witness_HeaderFrameCompletesInItsLastStep :
    Inv headerLast ∧ headerLast.rst = false ∧ headerLast.fsm = .procHeader ∧ headerLast.cnt.toNat = 7 ∧
    headerLast.chan = .byte 0x65#8 :: [] := ⟨headerLast_inv, rfl, rfl, rfl, rfl⟩

theorem witness_DataFrameCompletesInItsLastStep :
    Inv dataLast ∧ dataLast.rst = false ∧ dataLast.fsm = .procData ∧ dataLast.cnt.toNat = 519 ∧
    dataLast.chan = .byte 0x1C#8 :: [] := ⟨dataLast_inv, rfl, rfl, rfl, rfl⟩

theorem witness_ReportedConditionsNeverChangeControl :
    (headerLast.rst = false ∧ headerLast.chan = [.byte 0x65#8] ∧ headerLast.fsm = .procHeader ∧
      headerLast.cnt.toNat = 7) ∧
    (dataLast.rst = false ∧ dataLast.chan = [.byte 0x1C#8] ∧ dataLast.fsm = .procData ∧ dataLast.cnt.toNat = 519) :=
  ⟨⟨rfl, rfl, rfl, rfl⟩, rfl, rfl, rfl, rfl⟩

theorem witness_EndOfStreamIsAFatalFault :
    ∀ sym ∈ [Symbol.eos, Symbol.err], ∀ f ∈ [FsmState.awaitTag, .procHeader, .procData],
      ({ offered [sym] with fsm := f } : State).rst = false ∧
      (f = .awaitTag ∨ f = .procHeader ∨ f = .procData) ∧
      ({ offered [sym] with fsm := f } : State).chan = [sym] ∧ ∃ cause : FaultCause,
        (sym = .eos ∧ cause = .truncated ∨ sym = .err ∧ cause = .channelError) := by
  intro sym hs f hf
  refine ⟨rfl, by simpa using hf, rfl, ?_⟩
  rcases List.mem_cons.1 hs with rfl | hs
  · exact ⟨.truncated, .inl ⟨rfl, rfl⟩⟩
  · exact ⟨.channelError, .inr ⟨List.mem_singleton.1 hs, rfl⟩⟩

theorem witness_FaultEntryIsPrecise :
    ∀ sym ∈ [Symbol.eos, .err, .byte 0x02#8],
      step (offered [sym]) = .next (nextD (step (offered [sym]))) ∧ (offered [sym]).fsm ≠ .fault ∧
        (nextD (step (offered [sym]))).fsm = .fault := by
  intro sym hs
  refine ⟨eq_next_of_isSome ?_, (by decide : FsmState.awaitTag ≠ .fault), ?_⟩ <;>
    (revert sym; decide +kernel)

theorem witness_DoneAndFaultHaveNoStep :
    ((stopped .done).rst = false ∧ (stopped .done).fsm = .done) ∧
    ((stopped .fault).rst = false ∧ (stopped .fault).fsm = .fault) ∧
    ∃ t, step (stopped .done).assertReset = .next t := ⟨⟨rfl, rfl⟩, ⟨rfl, rfl⟩, _, rfl⟩

theorem witness_WaitingHoldsTheState :
    State.reset.rst = false ∧ State.reset.inReady = true ∧ State.reset.chan = [] := ⟨rfl, rfl, rfl⟩

theorem witness_ResetReplacesTheRegistersAndNothingElse : dataLast.assertReset.rst = true := rfl

theorem witness_EveryStepKeepsTheInvariant :
    (Inv headerLast ∧ step headerLast = .next (nextD (step headerLast))) ∧
    (Inv dataLast ∧ step dataLast = .next (nextD (step dataLast))) :=
  ⟨⟨headerLast_inv, step_headerLast⟩, dataLast_inv, step_dataLast⟩

theorem witness_ControlFollowsTheTransitionTable :
    Inv headerLast ∧ headerLast.rst = false ∧ headerLast.chan = .byte 0x65#8 :: [] ∧
    step headerLast = .next (nextD (step headerLast)) := ⟨headerLast_inv, rfl, rfl, step_headerLast⟩

theorem witness_EachStepConsumesOneSymbol :
    dataLast.rst = false ∧ step dataLast = .next (nextD (step dataLast)) := ⟨rfl, step_dataLast⟩

theorem witness_ReadyEngineTakesEverySymbol :
    (Inv dataLast ∧ dataLast.rst = false ∧ dataLast.chan = .byte 0x1C#8 :: [] ∧ dataLast.inReady = true) ∧
    ∃ s, Inv s ∧ s.rst = false ∧ s.chan = .byte 0x00#8 :: [] ∧ s.inReady = false :=
  ⟨⟨dataLast_inv, rfl, rfl, rfl⟩, stopped .done,
    ⟨rfl, by decide, trivial, trivial, rfl, rfl, by decide⟩, rfl, rfl, rfl⟩

/-- Two engines with equal registers and equal next symbols, and different images and remaining symbols. -/
theorem witness_EngineIsDeterministicAndBlindToTheSink :
    ∃ s₁ s₂ t₁ : State, s₁.registers = s₂.registers ∧ s₁.rst = s₂.rst ∧ s₁.chan.head? = s₂.chan.head? ∧
      step s₁ = .next t₁ ∧ s₁.image ≠ s₂.image ∧ s₁.chan ≠ s₂.chan :=
  ⟨dataLast, { dataLast with image := [(0, 1#8)], chan := [.byte 0x1C#8, .eos] }, nextD (step dataLast), rfl, rfl, rfl,
    step_dataLast, by decide, by decide⟩

theorem witness_ImageFollowsFromTheOutputs :
    step dataLast = .next (nextD (step dataLast)) ∧ (nextD (step dataLast)).out.length = 2 :=
  ⟨step_dataLast, by decide +kernel⟩

theorem witness_GeometryChangesOnlyWithAHeader :
    headerLast.rst = false ∧ step headerLast = .next (nextD (step headerLast)) ∧
    (nextD (step headerLast)).hdrSeen ≠ headerLast.hdrSeen := ⟨rfl, step_headerLast, by decide +kernel⟩

theorem witness_EveryWriteIsAWholeAlignedBlock :
    step dataLast = .next (nextD (step dataLast)) ∧
    Output.sink (.write 2560#41 (List.replicate 512 5#8)) ∈ (nextD (step dataLast)).out.drop dataLast.out.length :=
  ⟨step_dataLast, by decide +kernel⟩

theorem witness_SinkIsClosedExactlyOnEnteringDone :
    step (offered [.byte 0xFF#8]) = .next (nextD (step (offered [.byte 0xFF#8]))) ∧
    (nextD (step (offered [.byte 0xFF#8]))).fsm = .done ∧ (nextD (step dataLast)).fsm ≠ .done :=
  ⟨eq_next_of_isSome (by decide +kernel), by decide +kernel, by decide +kernel⟩

theorem witness_RunEndsOnceTheStreamEnds :
    Inv (offered [.byte 0x00#8, .err]) ∧ (offered [.byte 0x00#8, .err]).rst = false ∧
    (offered [.byte 0x00#8, .err]).inReady = true ∧ Symbol.err ∈ (offered [.byte 0x00#8, .err]).chan ∧
    Symbol.eos ∈ (offered [.eos]).chan :=
  ⟨offered_inv _, rfl, rfl, by decide, by decide⟩

theorem witness_ByteStepsAgreeWithTheFrameLoop_frame :
    (offered (v21.map .byte)).fsm = .awaitTag ∧ (offered (v21.map .byte)).rst = false ∧
    ∃ o, frameTurn (offered (v21.map .byte)) = some (8, o) := ⟨rfl, rfl, _, rfl⟩

theorem witness_ByteStepsAgreeWithTheFrameLoop_stopped :
    ∃ o, frameTurn (offered [.byte 0x01#8, .byte 0x00#8, .eos]) = some (3, o) := ⟨_, rfl⟩

theorem witness_ByteStepsAgreeWithTheFrameLoop_waiting :
    frameTurn (offered []) = none ∧ frameTurn (offered [.byte 0x00#8, .byte 0x00#8]) = none := ⟨rfl, rfl⟩

theorem witness_EncodedFrameRunsItsInstruction :
    ∀ i ∈ [Instr.hdr 0#8 1#16 1#8 2#8 0x65C7#16, .dat 0#8 1#16 0#8 2#8 (fill 5#8) 0x1C99#16, .endOfTransfer],
      i.wf = true ∧ (offered ((encode i).map .byte ++ [.eos])).fsm = .awaitTag ∧
      (offered ((encode i).map .byte ++ [.eos])).rst = false ∧
      (offered ((encode i).map .byte ++ [.eos])).chan = (encode i).map .byte ++ [.eos] := by
  intro i hi
  refine ⟨?_, rfl, rfl, rfl⟩
  revert i; decide +kernel

theorem witness_PlacedFrameIsWhereTheByteStepsArrive :
    (v21.length = FrameShape.header.len ∧ shapeOfTag (byteAt v21 0) = some .header) ∧
    (v54.length = FrameShape.data.len ∧ shapeOfTag (byteAt v54 0) = some .data) ∧
    (offered (v54.map .byte ++ [.eos])).fsm = .awaitTag ∧ (offered (v54.map .byte ++ [.eos])).rst = false ∧
    (offered (v54.map .byte ++ [.eos])).chan = v54.map .byte ++ [.eos] :=
  ⟨by decide +kernel, by decide +kernel, rfl, rfl, rfl⟩

end Sys2Proof.Tests
end

section
/-! PROOFS. The state after reset and the reset step (O33), and the geometry registers (O41). -/

namespace Sys2Proof.Machine

/-- With the reset input high a step is the reset, whatever the channel offers (R210). -/
theorem step_of_rst {s : State} (hr : s.rst = true) : step s = .next s.applyReset := by
  simp [step, fsmStep, hr]

/-- Settles O33: the step is `applyReset`, and the values are those of `State.reset`. -/
theorem resetReplacesTheRegistersAndNothingElse : Obligations.ResetReplacesTheRegistersAndNothingElse := by
  refine ⟨fun s hr => ⟨s.applyReset, step_of_rst hr, ?_⟩, ?_⟩
  · exact ⟨rfl, rfl, rfl, rfl, rfl, rfl, rfl, rfl, rfl, rfl, rfl⟩
  · exact ⟨rfl, rfl, rfl, rfl, rfl, rfl, rfl, rfl⟩

theorem byteAt_set_of_ne {l : List Byte} {i k : Nat} {b : Byte} (h : k ≠ i) :
    byteAt (l.set i b) k = byteAt l k := by
  simp [byteAt, List.getD_eq_getElem?_getD, List.getElem?_set_ne h.symm]

theorem byteAt_set_self {l : List Byte} {i : Nat} {b : Byte} (h : i < l.length) : byteAt (l.set i b) i = b := by
  simp [byteAt, List.getD_eq_getElem?_getD, h]

/-- A byte of a frame leaves the other places of the buffer alone (R114, R116). -/
theorem takeByte_fbufAt_of_ne {sh : FrameShape} {b : Byte} {s : State} {k : Nat} (h : k ≠ s.cnt.toNat) :
    (takeByte sh b s).fbufAt k = s.fbufAt k :=
  byteAt_set_of_ne h

/-- Settles O41: of the cases of a step, the completed header alone touches the geometry registers, and its own
last byte goes to `FBUF[7]`. -/
theorem geometryChangesOnlyWithAHeader : Obligations.GeometryChangesOnlyWithAHeader := by
  intro s t hr hstep hchange
  cases step_cases hstep with
  | header b rest _ hf hc hn =>
    have hkeep : ∀ k, k ≠ 7 →
        (takeByte .header b (s.afterSymbol rest)).fbufAt k = s.fbufAt k := fun k hk =>
      takeByte_fbufAt_of_ne (by rwa [afterSymbol_cnt, hn])
    exact ⟨hf, hn, rfl, congrArg some (hkeep 4 (by decide)), congrArg some (hkeep 5 (by decide))⟩
  | reset hr' => exact absurd (hr.symm.trans hr') (by decide)
  | wait | tag | terminator | illegal | stop | byte | data => simp at hchange

end Sys2Proof.Machine
end

section
/-! PROOFS. The engine is blind to its surroundings (O39): what a step does to the registers and appends to the outputs
is the same in every surroundings whose channel offers the same first symbol. -/

namespace Sys2Proof.Machine

/-- A step does what its case says: the converse of `step_cases`. -/
theorem step_eq_next_of_stepCase {s t : State} (h : StepCase s t) : step s = .next t := by
  cases h with
  | reset hr => exact step_of_rst hr
  | wait hr hf hc =>
    cases hfsm : s.fsm with
    | awaitTag | procHeader | procData => simp [step, fsmStep, hr, hfsm, consume, hc]
    | done | fault => simp [State.inReady, hfsm] at hf
  | tag sh b rest hr hf hc ht hs =>
    rw [step_awaitTag hr hf hc, awaitTagByte, ht]
    cases sh with
    | header | data => rfl
    | terminator => exact absurd rfl hs
  | terminator b rest hr hf hc ht => rw [step_awaitTag hr hf hc, awaitTagByte, ht]; rfl
  | illegal b rest hr hf hc ht => rw [step_awaitTag hr hf hc, awaitTagByte, ht]
  | stop sym rest hr hf hc hs =>
    cases hfsm : s.fsm with
    | awaitTag | procHeader | procData =>
      rcases hs with rfl | rfl <;> simp [step, fsmStep, hr, hfsm, consume, hc, awaitTag, collect]
    | done | fault => simp [State.inReady, hfsm] at hf
  | byte sh b rest hr hs hf hc h1 h2 =>
    rw [step_collect hs hr hf hc, collectByte, afterSymbol_cnt, if_pos ⟨h1, by omega⟩, if_neg (by omega)]
  | header b rest hr hf hc hn =>
    rw [step_collect (sh := .header) (by decide) hr hf hc, collectByte, afterSymbol_cnt, hn]
    rfl
  | data b rest hr hf hc hn =>
    rw [step_collect (sh := .data) (by decide) hr hf hc, collectByte, afterSymbol_cnt, hn]
    rfl

/-- What a state holds beside the registers of R10 and the reset input. -/
structure Surroundings where
  chan : List Symbol
  image : Memory
  sinkOpen : Bool
  out : List Output

/-- The registers and the reset input of `s` in the surroundings `e`. -/
def State.within (s : State) (e : Surroundings) : State :=
  { s with chan := e.chan, image := e.image, sinkOpen := e.sinkOpen, out := e.out }

/-- Two states with equal registers and equal reset inputs differ in their surroundings alone. -/
theorem eq_within_of_registers_eq {s₁ s₂ : State} (h : s₁.registers = s₂.registers) (hr : s₁.rst = s₂.rst) :
    s₂ = s₁.within ⟨s₂.chan, s₂.image, s₂.sinkOpen, s₂.out⟩ := by
  cases s₁
  cases s₂
  simp only [State.registers, Registers.mk.injEq] at h
  obtain ⟨rfl, rfl, rfl, rfl, rfl, rfl, rfl, rfl⟩ := h
  cases hr
  rfl

/-- What a completed data frame appends to the outputs (R144, R146, R52). -/
def dataOutputs (v : State) : List Output :=
  match dataOffset v.cyl v.head v.sect v with
  | none => [.event (.data (dataRecord v.fstatus v.cyl v.head v.sect v.crcRxD v))]
  | some o => [.sink (.write o v.payload), .event (.data (dataRecord v.fstatus v.cyl v.head v.sect v.crcRxD v))]

theorem dataDone_out (v : State) : (dataDone v).out = v.out ++ dataOutputs v := by
  unfold dataOutputs
  rcases dataDone_cases v with ⟨ho, -, hout⟩ | ⟨o, ho, -, hout⟩ <;> simp only [ho, hout]

/-- A data frame's operation writes no register (R144); the return to `AWAIT_TAG` sets `STATE` and `CNT`. -/
theorem dataDone_registers (v : State) :
    (dataDone v).registers = { v.registers with fsm := .awaitTag, cnt := 0#10 } := by
  simp [State.registers]

/-- Each case of a step is possible in other surroundings too, when their channel offers the same first symbol, with the
same registers after it and the same outputs appended. -/
theorem stepCase_within {s t : State} {e : Surroundings} (h : StepCase s t) (hhead : s.chan.head? = e.chan.head?) :
    ∃ t' new, StepCase (s.within e) t' ∧ t.registers = t'.registers ∧ t.out = s.out ++ new ∧ t'.out = e.out ++ new := by
  have offers {sym : Symbol} {rest : List Symbol} (hc : s.chan = sym :: rest) : ∃ rest', e.chan = sym :: rest' :=
    List.head?_eq_some_iff.1 (by rw [← hhead, hc, List.head?_cons])
  cases h with
  | reset hr => exact ⟨_, [], .reset hr, rfl, (List.append_nil _).symm, (List.append_nil _).symm⟩
  | wait hr hf hc =>
    have hc' : e.chan = [] := List.head?_eq_none_iff.1 (by rw [← hhead, hc, List.head?_nil])
    exact ⟨_, [], .wait hr hf hc', rfl, (List.append_nil _).symm, (List.append_nil _).symm⟩
  | tag sh b rest hr hf hc ht hs =>
    obtain ⟨rest', hc'⟩ := offers hc
    exact ⟨_, [], .tag sh b rest' hr hf hc' ht hs, rfl, (List.append_nil _).symm, (List.append_nil _).symm⟩
  | terminator b rest hr hf hc ht =>
    obtain ⟨rest', hc'⟩ := offers hc
    exact ⟨_, _, .terminator b rest' hr hf hc' ht, rfl, endDone_out _, endDone_out _⟩
  | illegal b rest hr hf hc ht =>
    obtain ⟨rest', hc'⟩ := offers hc
    exact ⟨_, _, .illegal b rest' hr hf hc' ht, rfl, raiseFault_out .., raiseFault_out ..⟩
  | stop sym rest hr hf hc hs =>
    obtain ⟨rest', hc'⟩ := offers hc
    exact ⟨_, _, .stop sym rest' hr hf hc' hs, rfl, raiseFault_out .., raiseFault_out ..⟩
  | byte sh b rest hr hs hf hc h1 h2 =>
    obtain ⟨rest', hc'⟩ := offers hc
    exact ⟨_, [], .byte sh b rest' hr hs hf hc' h1 h2, rfl, (List.append_nil _).symm, (List.append_nil _).symm⟩
  | header b rest hr hf hc hn =>
    obtain ⟨rest', hc'⟩ := offers hc
    exact ⟨_, _, .header b rest' hr hf hc' hn, rfl, headerDone_out _, headerDone_out _⟩
  | data b rest hr hf hc hn =>
    obtain ⟨rest', hc'⟩ := offers hc
    exact ⟨_, _, .data b rest' hr hf hc' hn, by rw [dataDone_registers, dataDone_registers]; rfl,
      dataDone_out _, dataDone_out _⟩

/-- Settles O39: the second state is the first one's registers in its own surroundings, and `stepCase_within` carries
the step over. -/
theorem engineIsDeterministicAndBlindToTheSink : Obligations.EngineIsDeterministicAndBlindToTheSink := by
  intro s₁ s₂ t₁ hregs hrst hhead hstep
  obtain ⟨t₂, new, hcase, hregs', hout₁, hout₂⟩ :=
    stepCase_within (e := ⟨s₂.chan, s₂.image, s₂.sinkOpen, s₂.out⟩) (step_cases hstep) hhead
  rw [← eq_within_of_registers_eq hregs hrst] at hcase
  exact ⟨t₂, new, step_eq_next_of_stepCase hcase, hregs', hout₁, hout₂⟩

end Sys2Proof.Machine
end

section
/-! PROOFS. The invariant of the reachable states (O34, O35): it holds after a reset, and each case of a step keeps it. -/

namespace Sys2Proof.Machine

section Collecting
/-! What the invariant says while a frame of shape `sh` is collected, for both shapes at once. -/

variable {s : State} {sh : FrameShape}

theorem cntLegal_of_collecting (hs : sh ≠ .terminator) (hf : s.fsm = collectingState sh) :
    cntLegal s ↔ 1 ≤ s.cnt.toNat ∧ s.cnt.toNat < sh.len := by
  cases sh with
  | header => rw [collectingState] at hf; simp only [cntLegal, hf, len_header]; omega
  | data => rw [collectingState] at hf; simp only [cntLegal, hf, len_data]; omega
  | terminator => exact absurd rfl hs

theorem tagLegal_of_collecting (hs : sh ≠ .terminator) (hf : s.fsm = collectingState sh) :
    tagLegal s ↔ shapeOfTag s.tag = some sh := by
  cases sh with
  | header => rw [collectingState] at hf; simp only [tagLegal, hf, shapeOfTag_eq_header]
  | data => rw [collectingState] at hf; simp only [tagLegal, hf, shapeOfTag_eq_data]
  | terminator => exact absurd rfl hs

theorem crcLegal_of_collecting (hs : sh ≠ .terminator) (hf : s.fsm = collectingState sh) :
    crcLegal s ↔ s.crcAcc = crc16 (s.fbuf.bytes.take (min s.cnt.toNat sh.covered)) := by
  cases sh with
  | header => rw [collectingState] at hf; simp only [crcLegal, hf]; rfl
  | data => rw [collectingState] at hf; simp only [crcLegal, hf]; rfl
  | terminator => exact absurd rfl hs

end Collecting

theorem collectingState_ne_fault (sh : FrameShape) : collectingState sh ≠ .fault := by cases sh <;> decide

theorem frameShape_len_le (sh : FrameShape) : sh.len ≤ 520 := by cases sh <;> decide

/-! ### The checksum of the bytes so far -/

theorem crc16_concat (l : List Byte) (b : Byte) : crc16 (l ++ [b]) = crc16Update (crc16 l) b := by
  simp [crc16, crc16From_append]

/-- Storing byte `n` and folding it in, while byte `n` is covered, keeps `CRC_ACC` the checksum of the covered bytes so
far (R15, R114, R116). -/
theorem crcAfter_crc16_take {l : List Byte} {n covered : Nat} {b : Byte} (hn : n < l.length) :
    crcAfter covered n b (crc16 (l.take (min n covered))) = crc16 ((l.set n b).take (min (n + 1) covered)) := by
  rcases Nat.lt_or_ge n covered with h | h
  · have htake : (l.set n b).take (n + 1) = l.take n ++ [b] := by
      rw [List.take_add_one, List.take_set_of_le (Nat.le_refl n), List.getElem?_set_self hn]
      rfl
    rw [crcAfter_of_lt h, Nat.min_eq_left (by omega), Nat.min_eq_left h, htake, crc16_concat]
  · rw [crcAfter_of_le h, Nat.min_eq_right h, Nat.min_eq_right (by omega), List.take_set_of_le h]

/-! ### The place a data frame is written at -/

theorem offset_toNat (l : BitVec 32) : (offset l).toNat = 512 * l.toNat := by
  have hl := l.isLt
  simp only [offset, BitVec.toNat_shiftLeft, BitVec.truncate_eq_setWidth, BitVec.toNat_setWidth, Nat.shiftLeft_eq]
  omega

theorem State.payload_length (s : State) : s.payload.length = 512 := by
  simp [State.payload]

/-- A block of 512 bytes at a data frame's offset lies within the image (R164). -/
theorem dataOffset_block_le {cy : Half} {hd sc : Byte} {s : State} {o : BitVec 41} (h : dataOffset cy hd sc s = some o) :
    o.toNat + 512 ≤ Config.imageLimit := by
  obtain ⟨l, -, rfl⟩ := Option.map_eq_some_iff.1 h
  have hl := l.isLt
  rw [offset_toNat]
  simp only [Config.imageLimit]
  omega

/-- A completed data frame keeps the image in canonical form. -/
theorem dataDone_image_wf {v : State} (h : Memory.wf v.image) : Memory.wf (dataDone v).image := by
  rcases dataDone_cases v with ⟨-, himage, -⟩ | ⟨o, ho, himage, -⟩
  · rwa [himage]
  · rw [himage]
    exact Memory.write_wf h (by rw [State.payload_length]; exact dataOffset_block_le ho)

/-! ### What the invariant gives, and what it needs -/

theorem Inv.faultCause_eq_none {s : State} (hi : Inv s) (hf : s.fsm ≠ .fault) : s.faultCause = .none :=
  Decidable.not_not.1 fun h => hf (hi.cause.1 h)

theorem Inv.cnt_le {s : State} (hi : Inv s) : s.cnt.toNat ≤ 519 := by
  have h := hi.cnt
  unfold cntLegal at h
  split at h <;> omega

theorem Inv.afterSymbol {s : State} (hi : Inv s) (rest : List Symbol) : Inv (s.afterSymbol rest) where
  __ := hi

/-- The part of the invariant that speaks of neither `STATE` nor the frame being collected: the geometry registers and
the image. -/
structure StoreLegal (s : State) : Prop where
  maxHead : s.maxHead.isSome = s.hdrSeen
  maxSector : s.maxSector.isSome = s.hdrSeen
  image : Memory.wf s.image

theorem Inv.storeLegal {s : State} (hi : Inv s) : StoreLegal s := ⟨hi.maxHead, hi.maxSector, hi.image⟩

/-- The invariant between two frames and in `DONE`. -/
theorem StoreLegal.inv_of_idle {s : State} (h : StoreLegal s) (hf : s.fsm = .awaitTag ∨ s.fsm = .done)
    (hn : s.cnt = 0#10) (hc : s.faultCause = .none) : Inv s where
  cnt := by rcases hf with hf | hf <;> simp [cntLegal, hf, hn]
  cause := by rcases hf with hf | hf <;> simp [hf, hc]
  tag := by rcases hf with hf | hf <;> simp only [tagLegal, hf]
  crc := by rcases hf with hf | hf <;> simp only [crcLegal, hf]
  maxHead := h.maxHead
  maxSector := h.maxSector
  image := h.image

/-- The invariant inside a frame of shape `sh`. -/
theorem StoreLegal.inv_of_collecting {s : State} {sh : FrameShape} (h : StoreLegal s) (hs : sh ≠ .terminator)
    (hf : s.fsm = collectingState sh) (hc : s.faultCause = .none) (hn : 1 ≤ s.cnt.toNat ∧ s.cnt.toNat < sh.len)
    (htag : shapeOfTag s.tag = some sh)
    (hcrc : s.crcAcc = crc16 (s.fbuf.bytes.take (min s.cnt.toNat sh.covered))) : Inv s where
  cnt := (cntLegal_of_collecting hs hf).2 hn
  cause := by simp [hc, hf, collectingState_ne_fault]
  tag := (tagLegal_of_collecting hs hf).2 htag
  crc := (crcLegal_of_collecting hs hf).2 hcrc
  maxHead := h.maxHead
  maxSector := h.maxSector
  image := h.image

/-- A fatal fault may be raised wherever `CNT` is in range. -/
theorem StoreLegal.inv_raiseFault {s : State} {cause : FaultCause} (h : StoreLegal s) (hn : s.cnt.toNat ≤ 519)
    (hc : cause ≠ .none) : Inv (s.raiseFault cause) where
  cnt := hn
  cause := iff_of_true hc rfl
  tag := trivial
  crc := trivial
  maxHead := h.maxHead
  maxSector := h.maxSector
  image := h.image

/-! ### The operations a step is made of -/

theorem inv_applyReset {s : State} (h : Memory.wf s.image) : Inv s.applyReset :=
  StoreLegal.inv_of_idle ⟨rfl, rfl, h⟩ (.inl rfl) rfl rfl

theorem StoreLegal.takeTag {s : State} (h : StoreLegal s) (b : Byte) : StoreLegal (takeTag b s) :=
  ⟨h.maxHead, h.maxSector, h.image⟩

theorem StoreLegal.takeByte {s : State} (h : StoreLegal s) (sh : FrameShape) (b : Byte) :
    StoreLegal (takeByte sh b s) :=
  ⟨h.maxHead, h.maxSector, h.image⟩

/-- The tag starts a frame of its shape (R112). -/
theorem inv_enter_takeTag {s : State} {sh : FrameShape} {b : Byte} (h : StoreLegal s) (hc : s.faultCause = .none)
    (hs : sh ≠ .terminator) (ht : shapeOfTag b = some sh) : Inv ((takeTag b s).enter sh) := by
  have htag : ((takeTag b s).enter sh).tag = b := byteAt_set_self (by simp)
  have hcovered : 0 < sh.covered ∧ 1 < sh.len := by cases sh <;> simp at hs ⊢
  have hcrc := crcAfter_crc16_take (covered := sh.covered) (b := b) (l := s.fbuf.bytes) (n := 0) (by simp)
  rw [crcAfter_of_lt hcovered.1, Nat.zero_min, List.take_zero] at hcrc
  exact StoreLegal.inv_of_collecting ⟨h.maxHead, h.maxSector, h.image⟩ hs rfl hc ⟨Nat.le_refl 1, hcovered.2⟩
    (by rw [htag, ht]) hcrc

/-- A byte inside a frame, not its last, keeps the invariant (R114). -/
theorem inv_takeByte {s : State} {sh : FrameShape} {b : Byte} (hi : Inv s) (hs : sh ≠ .terminator)
    (hf : s.fsm = collectingState sh) (hlast : s.cnt.toNat + 1 < sh.len) : Inv (takeByte sh b s) := by
  obtain ⟨hpos, hlt⟩ := (cntLegal_of_collecting hs hf).1 hi.cnt
  have hlen := frameShape_len_le sh
  have hcnt : (s.cnt + 1#10).toNat = s.cnt.toNat + 1 := by
    rw [BitVec.toNat_add_of_lt (by simp; omega)]; rfl
  have htag : (takeByte sh b s).tag = s.tag := takeByte_fbufAt_of_ne (by omega)
  have hcrc : (takeByte sh b s).crcAcc = crc16 ((s.fbuf.bytes.set s.cnt.toNat b).take
      (min (s.cnt.toNat + 1) sh.covered)) := by
    rw [takeByte_crcAcc, (crcLegal_of_collecting hs hf).1 hi.crc]
    exact crcAfter_crc16_take (by rw [FrameBuffer.length_bytes]; omega)
  refine (hi.storeLegal.takeByte sh b).inv_of_collecting hs hf
    (hi.faultCause_eq_none (hf ▸ collectingState_ne_fault sh)) ?_ ?_ ?_
  · rw [takeByte_cnt, hcnt]; omega
  · rw [htag]; exact (tagLegal_of_collecting hs hf).1 hi.tag
  · rw [hcrc, takeByte_cnt, hcnt, takeByte_fbuf, bufferSet_bytes]

/-- A completed header gives the geometry registers their values and returns to `AWAIT_TAG` (R115, R141). -/
theorem inv_headerDone {v : State} (h : StoreLegal v) (hc : v.faultCause = .none) : Inv (headerDone v) :=
  StoreLegal.inv_of_idle ⟨rfl, rfl, h.image⟩ (.inl rfl) rfl hc

/-- A completed data frame writes the image and returns to `AWAIT_TAG` (R117, R144). -/
theorem inv_dataDone {v : State} (h : StoreLegal v) (hc : v.faultCause = .none) : Inv (dataDone v) :=
  StoreLegal.inv_of_idle
    ⟨by simpa using h.maxHead, by simpa using h.maxSector, dataDone_image_wf h.image⟩
    (.inl (dataDone_fsm v)) (dataDone_cnt v) (by simpa using hc)

/-- A terminator ends in `DONE` (R147). -/
theorem inv_endDone {v : State} (h : StoreLegal v) (hc : v.faultCause = .none) : Inv (endDone v) :=
  StoreLegal.inv_of_idle ⟨h.maxHead, h.maxSector, h.image⟩ (.inr rfl) rfl hc

/-- Settles O34: `State.reset` is the reset of a state with an empty image. -/
theorem resetMeetsTheInvariant : Obligations.ResetMeetsTheInvariant :=
  inv_applyReset (s := State.reset) ⟨List.Pairwise.nil, fun _ hc => absurd hc List.not_mem_nil⟩

/-- Settles O35, by the cases of a step. -/
theorem everyStepKeepsTheInvariant : Obligations.EveryStepKeepsTheInvariant := by
  intro s t hi hstep
  have hstore (rest : List Symbol) : StoreLegal (s.afterSymbol rest) := (hi.afterSymbol rest).storeLegal
  cases step_cases hstep with
  | reset => exact inv_applyReset hi.image
  | wait => exact hi
  | tag sh b rest _ hf _ ht hs =>
    exact inv_enter_takeTag (hstore rest) (hi.faultCause_eq_none (by simp [hf])) hs ht
  | terminator b rest _ hf =>
    exact inv_endDone ((hstore rest).takeTag b) (hi.faultCause_eq_none (by simp [hf]))
  | illegal b rest => exact ((hstore rest).takeTag b).inv_raiseFault (by simp) (by decide)
  | stop sym rest _ _ _ hs =>
    exact (hstore rest).inv_raiseFault hi.cnt_le (by rcases hs with rfl | rfl <;> decide)
  | byte sh b rest _ hs hf _ _ hlast => exact inv_takeByte (hi.afterSymbol rest) hs hf hlast
  | header b rest _ hf =>
    exact inv_headerDone ((hstore rest).takeByte .header b) (hi.faultCause_eq_none (by simp [hf]))
  | data b rest _ hf =>
    exact inv_dataDone ((hstore rest).takeByte .data b) (hi.faultCause_eq_none (by simp [hf]))

end Sys2Proof.Machine
end

section
/-! PROOFS. The byte steps and the blocking-read loop are the same machine (O45): the bytes of a frame collected one by
one stand in the registers as `loadFrame` puts them there, and `recvExact` reads what the channel offers first. -/

namespace Sys2Proof.Machine

/-! ### Storing one more byte of a frame -/

theorem bufferLoad_nil (f : FrameBuffer) : bufferLoad [] f = f := by
  cases f with
  | mk bytes size => simp [bufferLoad, size]

theorem bufferSet_bufferLoad {bs : List Byte} {b : Byte} {f : FrameBuffer} (h : bs.length < 520) :
    bufferSet bs.length b (bufferLoad bs f) = bufferLoad (bs ++ [b]) f := by
  have hdrop : f.bytes.drop bs.length = f.bytes[bs.length]'(by simpa using h) :: f.bytes.drop (bs.length + 1) :=
    List.drop_eq_getElem_cons _
  have hset : (bs ++ f.bytes.drop bs.length).set bs.length b = (bs ++ [b]) ++ f.bytes.drop (bs.length + 1) := by
    rw [hdrop, List.set_append_right _ _ (Nat.le_refl _), Nat.sub_self, List.set_cons_zero, List.append_assoc]
    rfl
  rw [FrameBuffer.mk.injEq, bufferSet_bytes, bufferLoad_bytes, bufferLoad_bytes, ← List.take_set, hset,
    List.length_append]
  rfl

/-- The checksum of the covered bytes so far, one byte later (R114, R116). -/
theorem crcAfter_crc16_take_concat (covered : Nat) (bs : List Byte) (b : Byte) :
    crcAfter covered bs.length b (crc16 (bs.take covered)) = crc16 ((bs ++ [b]).take covered) := by
  rcases Nat.lt_or_ge bs.length covered with h | h
  · rw [crcAfter_of_lt h, List.take_of_length_le (by omega), List.take_of_length_le (by simp; omega), crc16_concat]
  · rw [crcAfter_of_le h, List.take_append_of_le_length h]

/-- A byte stored after the first bytes of a frame stands where `loadFrame` of one byte more puts it. -/
theorem takeByte_loadFrame {sh : FrameShape} {bs : List Byte} {b : Byte} {s : State} (h : bs.length < 520) :
    takeByte sh b (loadFrame sh bs s) = loadFrame sh (bs ++ [b]) s := by
  have hcnt : (loadFrame sh bs s).cnt.toNat = bs.length := by
    rw [loadFrame_cnt, BitVec.toNat_ofNat]; omega
  have hnext : (loadFrame sh bs s).cnt + 1#10 = BitVec.ofNat 10 (bs ++ [b]).length := by
    rw [loadFrame_cnt, List.length_append, BitVec.ofNat_add]; rfl
  unfold takeByte
  rw [hcnt, hnext, loadFrame_crcAcc, crcAfter_crc16_take_concat, State.storeByte, loadFrame_fbuf,
    bufferSet_bufferLoad h]
  rfl

/-- A tag byte stored is the first byte of a frame loaded (R112). -/
theorem takeTag_eq_loadFrame (sh : FrameShape) (b : Byte) (s : State) : takeTag b s = loadFrame sh [b] s := by
  have hbuf : bufferSet 0 b s.fbuf = bufferLoad [b] s.fbuf := by
    simpa [bufferLoad_nil] using bufferSet_bufferLoad (bs := []) (b := b) (f := s.fbuf) (by decide)
  have hcrc : crc16Update Config.crcInit b = crc16 ([b].take sh.covered) := by
    cases sh <;> simp [crc16]
  unfold takeTag State.storeByte
  rw [hbuf, hcrc]
  rfl

/-! ### The engine inside a frame -/

theorem dataDone_enter (sh : FrameShape) (v : State) : dataDone (v.enter sh) = dataDone v := by
  have hoff : dataOffset v.cyl v.head v.sect (v.enter sh) = dataOffset v.cyl v.head v.sect v := rfl
  show ((writePayload (dataOffset v.cyl v.head v.sect (v.enter sh)) v.payload (v.enter sh)).emit _).toAwaitTag = _
  rw [hoff]
  unfold dataDone
  cases dataOffset v.cyl v.head v.sect v <;> rfl

/-- A frame's operation does not look at `STATE`, and control after it sets `STATE` (R115, R117, R147). -/
theorem runFrame_enter (sh sh' : FrameShape) (v : State) : runFrame sh (v.enter sh') = runFrame sh v := by
  cases sh with
  | header => rfl
  | data => rw [runFrame_data, runFrame_data, dataDone_enter]
  | terminator => rfl

/-- `s` with the first bytes `bs` of a frame of shape `sh` collected, and `chan` not yet consumed. -/
def collecting (sh : FrameShape) (bs : List Byte) (chan : List Symbol) (s : State) : State :=
  (loadFrame sh bs (s.afterSymbol chan)).enter sh

section Collecting
variable {sh : FrameShape} {bs : List Byte} {b : Byte} {s : State} {rest : List Symbol}

theorem collecting_cnt_toNat {chan : List Symbol} (h : bs.length < 1024) :
    (collecting sh bs chan s).cnt.toNat = bs.length := by
  show (BitVec.ofNat 10 bs.length).toNat = bs.length
  rw [BitVec.toNat_ofNat]; omega

theorem takeByte_collecting (h : bs.length < 520) :
    takeByte sh b ((collecting sh bs (.byte b :: rest) s).afterSymbol rest) = collecting sh (bs ++ [b]) rest s :=
  congrArg (State.enter sh) (takeByte_loadFrame (s := s.afterSymbol rest) h)

theorem collecting_inReady {chan : List Symbol} : (collecting sh bs chan s).inReady = true := by
  cases sh <;> rfl

/-- A byte that does not complete the frame is collected (R114, R116). -/
theorem step_collecting (hs : sh ≠ .terminator) (hr : s.rst = false) (hpos : 1 ≤ bs.length)
    (hlen : bs.length + 1 < sh.len) :
    step (collecting sh bs (.byte b :: rest) s) = .next (collecting sh (bs ++ [b]) rest s) := by
  have hle := frameShape_len_le sh
  have hcnt := collecting_cnt_toNat (sh := sh) (bs := bs) (s := s) (chan := .byte b :: rest) (by omega)
  rw [← takeByte_collecting (by omega)]
  exact step_eq_next_of_stepCase (.byte sh b rest hr hs rfl rfl (by omega) (by omega))

/-- The last byte of a frame completes it: its operation runs on the whole frame (R115, R117). -/
theorem step_collecting_last (hs : sh ≠ .terminator) (hr : s.rst = false) (hpos : 1 ≤ bs.length)
    (hlen : bs.length + 1 = sh.len) :
    step (collecting sh bs (.byte b :: rest) s) = runFrame sh (loadFrame sh (bs ++ [b]) (s.afterSymbol rest)) := by
  have hle := frameShape_len_le sh
  have hcnt := collecting_cnt_toNat (sh := sh) (bs := bs) (s := s) (chan := .byte b :: rest) (by omega)
  have hstep := step_collect (s := collecting sh bs (.byte b :: rest) s) hs hr rfl rfl
  rw [hstep, collectByte, afterSymbol_cnt, hcnt, if_pos (by omega), if_pos hlen, takeByte_collecting (by omega)]
  exact runFrame_enter ..

/-- The engine collects the bytes of a frame that do not complete it, one a step. -/
theorem runSteps_collecting (more : List Byte) (hs : sh ≠ .terminator) (hr : s.rst = false) (hpos : 1 ≤ bs.length)
    (hlen : bs.length + more.length < sh.len) :
    runSteps more.length (collecting sh bs (more.map .byte ++ rest) s) = .next (collecting sh (bs ++ more) rest s) := by
  induction more generalizing bs with
  | nil => rw [List.append_nil]; rfl
  | cons b more ih =>
    rw [List.length_cons] at hlen
    have hstep : step (collecting sh bs ((b :: more).map .byte ++ rest) s) =
        .next (collecting sh (bs ++ [b]) (more.map .byte ++ rest) s) :=
      step_collecting hs hr hpos (by omega)
    rw [List.length_cons, runSteps_succ hstep, ih (by simp) (by simp; omega), List.append_assoc]
    rfl

end Collecting

section Frame
variable {sh : FrameShape} {tag : Byte} {s : State} {rest : List Symbol}

/-- A tag and the bytes after it that do not complete its frame are collected, one a step (R112, R114, R116). -/
theorem runSteps_partial_frame (bs : List Byte) (hs : sh ≠ .terminator) (hf : s.fsm = .awaitTag) (hr : s.rst = false)
    (hc : s.chan = .byte tag :: (bs.map .byte ++ rest)) (ht : shapeOfTag tag = some sh)
    (hlen : bs.length + 1 < sh.len) :
    runSteps (bs.length + 1) s = .next (collecting sh (tag :: bs) rest s) := by
  have htag := step_eq_next_of_stepCase (.tag sh tag _ hr hf hc ht hs)
  rw [takeTag_eq_loadFrame sh] at htag
  rw [runSteps_succ htag]
  exact runSteps_collecting (bs := [tag]) bs hs hr (by simp) (by simp; omega)

/-- A whole frame is collected and its operation runs in the step that takes its last byte (R111, R115, R117); a
terminator's only byte is its tag (R112). -/
theorem runSteps_whole_frame (bs : List Byte) (hf : s.fsm = .awaitTag) (hr : s.rst = false)
    (hc : s.chan = .byte tag :: (bs.map .byte ++ rest)) (ht : shapeOfTag tag = some sh)
    (hlen : bs.length + 1 = sh.len) :
    runSteps sh.len s = runFrame sh (loadFrame sh (tag :: bs) (s.afterSymbol rest)) := by
  rcases List.eq_nil_or_concat bs with rfl | ⟨init, last, rfl⟩
  · cases sh with
    | header | data => simp at hlen
    | terminator =>
      rw [len_terminator, runSteps_one, ← takeTag_eq_loadFrame]
      exact step_eq_next_of_stepCase (.terminator tag rest hr hf hc ht)
  · simp only [List.concat_eq_append, List.length_append, List.length_singleton] at hlen ⊢
    have hs : sh ≠ .terminator := by rintro rfl; simp at hlen
    have hc' : s.chan = .byte tag :: (init.map .byte ++ .byte last :: rest) := by simpa using hc
    rw [← hlen, runSteps_add (runSteps_partial_frame init hs hf hr hc' ht (by omega)), runSteps_one,
      step_collecting_last hs hr (by simp) (by simpa using hlen)]
    rfl

/-- A symbol that is no byte stops the engine inside a frame, with the bytes before it collected (R118). -/
theorem runSteps_stopped_frame (bs : List Byte) {sym : Symbol} (hs : sh ≠ .terminator) (hf : s.fsm = .awaitTag)
    (hr : s.rst = false) (hc : s.chan = .byte tag :: (bs.map .byte ++ sym :: rest)) (ht : shapeOfTag tag = some sh)
    (hlen : bs.length + 1 < sh.len) (hsym : sym = .eos ∨ sym = .err) :
    runSteps (bs.length + 2) s =
      .next ((loadFrame sh (tag :: bs) (s.afterSymbol rest)).raiseFault (endCause sym)) := by
  rw [runSteps_add (m := bs.length + 1) (n := 1) (runSteps_partial_frame bs hs hf hr hc ht hlen), runSteps_one]
  exact step_eq_next_of_stepCase (.stop sym rest hr collecting_inReady rfl hsym)

end Frame

/-! ### The blocking read -/

/-- What a read of `n` bytes says of the channel it read from (R41). -/
def Received.Reads (n : Nat) (chan : List Symbol) : Received → Prop
  | .bytes bs rest => chan = bs.map .byte ++ rest ∧ bs.length = n
  | .stopped bs sym rest => chan = bs.map .byte ++ sym :: rest ∧ bs.length < n ∧ (sym = .eos ∨ sym = .err)
  | .waiting => ∃ bs : List Byte, chan = bs.map .byte ∧ bs.length < n

theorem Received.Reads.cons {n : Nat} {chan : List Symbol} {r : Received} (b : Byte) (h : r.Reads n chan) :
    (r.cons b).Reads (n + 1) (.byte b :: chan) := by
  cases r with
  | bytes bs rest => exact ⟨by rw [h.1]; rfl, by rw [List.length_cons, h.2]⟩
  | stopped bs sym rest => exact ⟨by rw [h.1]; rfl, Nat.succ_lt_succ h.2.1, h.2.2⟩
  | waiting =>
    obtain ⟨bs, rfl, hlen⟩ := h
    exact ⟨b :: bs, rfl, Nat.succ_lt_succ hlen⟩

theorem recvExact_reads (n : Nat) (chan : List Symbol) : (recvExact n chan).Reads n chan := by
  fun_induction recvExact n chan with
  | case1 chan => exact ⟨rfl, rfl⟩
  | case2 n => exact ⟨[], rfl, Nat.succ_pos n⟩
  | case3 n b chan ih => exact ih.cons b
  | case4 n chan => exact ⟨rfl, Nat.succ_pos n, .inl rfl⟩
  | case5 n chan => exact ⟨rfl, Nat.succ_pos n, .inr rfl⟩

/-! ### One turn of the loop -/

section Turn
variable {s t : State} {sh : FrameShape} {tag : Byte} {rest : List Symbol}

theorem frameTurn_nil (hc : s.chan = []) : frameTurn s = none := by
  simp only [frameTurn, hc]

theorem frameTurn_stop {sym : Symbol} (hc : s.chan = sym :: rest) (hsym : sym = .eos ∨ sym = .err) :
    frameTurn s = some (1, .next ((s.afterSymbol rest).raiseFault (endCause sym))) := by
  rcases hsym with rfl | rfl <;> simp only [frameTurn, hc, endCause]

theorem frameTurn_illegal (hc : s.chan = .byte tag :: rest) (ht : shapeOfTag tag = none) :
    frameTurn s = some (1, .next ((takeTag tag (s.afterSymbol rest)).raiseFault .unknownTag)) := by
  simp only [frameTurn, hc, ht, takeTag_eq_loadFrame .terminator]

theorem frameTurn_frame (hc : s.chan = .byte tag :: rest) (ht : shapeOfTag tag = some sh) :
    frameTurn s = frameTurnShape sh tag rest s := by
  simp only [frameTurn, hc, ht]

/-- A turn of one symbol is one byte step. -/
theorem runSteps_of_frameTurn_eq_one {n : Nat} {o : Host.Outcome State Fault Refusal}
    (hturn : frameTurn s = some (1, .next t)) (hcase : StepCase s t) (h : frameTurn s = some (n, o)) :
    0 < n ∧ runSteps n s = o := by
  cases hturn.symm.trans h
  exact ⟨Nat.one_pos, (runSteps_one s).trans (step_eq_next_of_stepCase hcase)⟩

/-- A turn that reads a frame's bytes, or that `EOS` or `ERR` cuts short, is that many byte steps. -/
theorem runSteps_of_frameTurnShape_eq_some {n : Nat} {o : Host.Outcome State Fault Refusal} (hf : s.fsm = .awaitTag)
    (hr : s.rst = false) (hc : s.chan = .byte tag :: rest) (ht : shapeOfTag tag = some sh)
    (h : frameTurnShape sh tag rest s = some (n, o)) : 0 < n ∧ runSteps n s = o := by
  have hpos : 0 < sh.len := by cases sh <;> decide
  have hreads := recvExact_reads (sh.len - 1) rest
  unfold frameTurnShape at h
  cases hrecv : recvExact (sh.len - 1) rest with
  | bytes bs rest' =>
    rw [hrecv] at h hreads
    obtain ⟨rfl, hlen⟩ := hreads
    cases h
    exact ⟨hpos, runSteps_whole_frame bs hf hr hc ht (by omega)⟩
  | stopped bs sym rest' =>
    rw [hrecv] at h hreads
    obtain ⟨rfl, hlen, hsym⟩ := hreads
    cases h
    have hs : sh ≠ .terminator := by rintro rfl; simp at hlen
    exact ⟨Nat.succ_pos _, runSteps_stopped_frame bs hs hf hr hc ht (by omega) hsym⟩
  | waiting => rw [hrecv] at h; cases h

/-- While a frame's bytes are not all there, the byte steps collect those that are. -/
theorem runSteps_of_frameTurnShape_eq_none (hf : s.fsm = .awaitTag) (hr : s.rst = false)
    (hc : s.chan = .byte tag :: rest) (ht : shapeOfTag tag = some sh) (h : frameTurnShape sh tag rest s = none) :
    ∃ bs, runSteps s.chan.length s = .next (collecting sh (tag :: bs) [] s) := by
  have hreads := recvExact_reads (sh.len - 1) rest
  unfold frameTurnShape at h
  cases hrecv : recvExact (sh.len - 1) rest with
  | bytes bs rest' => rw [hrecv] at h; cases h
  | stopped bs sym rest' => rw [hrecv] at h; cases h
  | waiting =>
    rw [hrecv] at hreads
    obtain ⟨bs, rfl, hlen⟩ := hreads
    have hs : sh ≠ .terminator := by rintro rfl; simp at hlen
    have hrun := runSteps_partial_frame (rest := []) bs hs hf hr (by rw [hc, List.append_nil]) ht (by omega)
    exact ⟨bs, by rwa [hc, List.length_cons, List.length_map]⟩

/-- A turn that is no blocked read is that many byte steps, by what the channel offers first. -/
theorem runSteps_of_frameTurn_eq_some {n : Nat} {o : Host.Outcome State Fault Refusal} (hf : s.fsm = .awaitTag)
    (hr : s.rst = false) (h : frameTurn s = some (n, o)) : 0 < n ∧ runSteps n s = o := by
  have hready : s.inReady = true := by rw [State.inReady, hf]
  match hc : s.chan with
  | [] => rw [frameTurn_nil hc] at h; cases h
  | .eos :: rest =>
    exact runSteps_of_frameTurn_eq_one (frameTurn_stop hc (.inl rfl)) (.stop .eos rest hr hready hc (.inl rfl)) h
  | .err :: rest =>
    exact runSteps_of_frameTurn_eq_one (frameTurn_stop hc (.inr rfl)) (.stop .err rest hr hready hc (.inr rfl)) h
  | .byte tag :: rest =>
    cases ht : shapeOfTag tag with
    | none => exact runSteps_of_frameTurn_eq_one (frameTurn_illegal hc ht) (.illegal tag rest hr hf hc ht) h
    | some sh => exact runSteps_of_frameTurnShape_eq_some hf hr hc ht ((frameTurn_frame hc ht).symm.trans h)

/-- While the loop's read blocks, the channel has offered nothing or a part of a frame. -/
theorem runSteps_of_frameTurn_eq_none (hf : s.fsm = .awaitTag) (hr : s.rst = false) (h : frameTurn s = none) :
    ∃ t, runSteps s.chan.length s = .next t ∧ t.chan = [] ∧ t.out = s.out ∧ t.inReady = true := by
  match hc : s.chan with
  | [] => exact ⟨s, rfl, hc, rfl, by rw [State.inReady, hf]⟩
  | .eos :: rest => rw [frameTurn_stop hc (.inl rfl)] at h; cases h
  | .err :: rest => rw [frameTurn_stop hc (.inr rfl)] at h; cases h
  | .byte tag :: rest =>
    cases ht : shapeOfTag tag with
    | none => rw [frameTurn_illegal hc ht] at h; cases h
    | some sh =>
      obtain ⟨bs, hrun⟩ := runSteps_of_frameTurnShape_eq_none hf hr hc ht ((frameTurn_frame hc ht).symm.trans h)
      rw [hc] at hrun
      exact ⟨_, hrun, rfl, rfl, collecting_inReady⟩

end Turn

/-- Settles O45: a turn of the loop is the run of its byte steps, and a blocked read is a run over what there is. -/
theorem byteStepsAgreeWithTheFrameLoop : Obligations.ByteStepsAgreeWithTheFrameLoop := fun _ hf hr =>
  ⟨fun _ _ => runSteps_of_frameTurn_eq_some hf hr, runSteps_of_frameTurn_eq_none hf hr⟩

end Sys2Proof.Machine
end

section
/-! PROOFS. The ports (O38, O40, O42, O43): when a symbol is taken, what a step appends to the outputs, and what these
do to the image and the sink. -/

namespace Sys2Proof.Machine

/-! ### Taking a symbol -/

theorem inReady_iff {s : State} :
    s.inReady = true ↔ s.fsm = .awaitTag ∨ s.fsm = .procHeader ∨ s.fsm = .procData := by
  cases hf : s.fsm <;> simp [State.inReady, hf]

/-- A ready engine awaits a tag or is inside a header or data frame. -/
theorem awaitTag_or_collecting_of_inReady {s : State} (h : s.inReady = true) :
    s.fsm = .awaitTag ∨ ∃ sh, sh ≠ .terminator ∧ s.fsm = collectingState sh := by
  rcases inReady_iff.1 h with hf | hf | hf
  · exact .inl hf
  · exact .inr ⟨.header, by decide, hf⟩
  · exact .inr ⟨.data, by decide, hf⟩

/-- Every byte has its step while the engine awaits a tag (R112). -/
theorem exists_stepCase_tag {s : State} {b : Byte} {rest : List Symbol} (hr : s.rst = false) (hf : s.fsm = .awaitTag)
    (hc : s.chan = .byte b :: rest) : ∃ t, StepCase s t := by
  cases ht : shapeOfTag b with
  | none => exact ⟨_, .illegal b rest hr hf hc ht⟩
  | some sh =>
    by_cases hs : sh = .terminator
    · exact ⟨_, .terminator b rest hr hf hc (hs ▸ ht)⟩
    · exact ⟨_, .tag sh b rest hr hf hc ht hs⟩

/-- Every byte has its step inside a frame, `CNT` in its range (R114). -/
theorem exists_stepCase_byte {s : State} {sh : FrameShape} {b : Byte} {rest : List Symbol} (hs : sh ≠ .terminator)
    (hr : s.rst = false) (hf : s.fsm = collectingState sh) (hc : s.chan = .byte b :: rest)
    (hpos : 1 ≤ s.cnt.toNat) (hlt : s.cnt.toNat < sh.len) : ∃ t, StepCase s t := by
  by_cases hlast : s.cnt.toNat + 1 < sh.len
  · exact ⟨_, .byte sh b rest hr hs hf hc hpos hlast⟩
  · cases sh with
    | header => exact ⟨_, .header b rest hr hf hc (by simp at hlt hlast; omega)⟩
    | data => exact ⟨_, .data b rest hr hf hc (by simp at hlt hlast; omega)⟩
    | terminator => exact absurd rfl hs

/-- A ready engine has a step for every symbol (R42, R231). -/
theorem exists_stepCase_of_inReady {s : State} {sym : Symbol} {rest : List Symbol} (hi : Inv s) (hr : s.rst = false)
    (hready : s.inReady = true) (hc : s.chan = sym :: rest) : ∃ t, StepCase s t := by
  cases sym with
  | eos => exact ⟨_, .stop .eos rest hr hready hc (.inl rfl)⟩
  | err => exact ⟨_, .stop .err rest hr hready hc (.inr rfl)⟩
  | byte b =>
    rcases awaitTag_or_collecting_of_inReady hready with hf | ⟨sh, hs, hf⟩
    · exact exists_stepCase_tag hr hf hc
    · obtain ⟨hpos, hlt⟩ := (cntLegal_of_collecting hs hf).1 hi.cnt
      exact exists_stepCase_byte hs hr hf hc hpos hlt

/-- Without a reset a step consumes the first symbol, if there is one (R50, R110). -/
theorem StepCase.chan_eq_tail {s t : State} (h : StepCase s t) (hr : s.rst = false) : t.chan = s.chan.tail := by
  cases h with
  | reset hr' => exact absurd (hr.symm.trans hr') (by decide)
  | wait _ _ hc => rw [hc]; rfl
  | data _ _ _ _ hc => rw [hc, dataDone_chan]; rfl
  | tag _ _ _ _ _ hc | byte _ _ _ _ _ _ hc => rw [hc]; rfl
  | terminator _ _ _ _ hc | illegal _ _ _ _ hc | stop _ _ _ _ hc | header _ _ _ _ hc => rw [hc]; rfl

/-- Without a reset only a ready engine has a step (R42, R119). -/
theorem StepCase.inReady {s t : State} (h : StepCase s t) (hr : s.rst = false) : s.inReady = true := by
  cases h with
  | reset hr' => exact absurd (hr.symm.trans hr') (by decide)
  | wait _ hready | stop _ _ _ hready => exact hready
  | tag _ _ _ _ hf | terminator _ _ _ hf | illegal _ _ _ hf => exact inReady_iff.2 (.inl hf)
  | header _ _ _ hf => exact inReady_iff.2 (.inr (.inl hf))
  | data _ _ _ hf => exact inReady_iff.2 (.inr (.inr hf))
  | byte sh _ _ _ hs hf =>
    cases sh with
    | header => exact inReady_iff.2 (.inr (.inl hf))
    | data => exact inReady_iff.2 (.inr (.inr hf))
    | terminator => exact absurd rfl hs

/-- Settles O38: a ready engine has a step, which consumes the symbol, and an engine with a step is ready. -/
theorem readyEngineTakesEverySymbol : Obligations.ReadyEngineTakesEverySymbol := by
  intro s sym rest hi hr hc
  refine ⟨inReady_iff, fun hready => ?_, fun hnot t hstep => ?_⟩
  · obtain ⟨t, hcase⟩ := exists_stepCase_of_inReady hi hr hready hc
    exact ⟨t, step_eq_next_of_stepCase hcase, by rw [hcase.chan_eq_tail hr, hc]; rfl⟩
  · exact absurd ((step_cases hstep).inReady hr) (by simp [hnot])

/-! ### The last byte of a data frame -/

section LastByte
variable {s : State} {sh : FrameShape} {b : Byte}

theorem takeByte_payload (h : s.cnt.toNat = 519) : (takeByte sh b s).payload = s.payload := by
  unfold State.payload
  rw [takeByte_fbuf, bufferSet_bytes, h, List.drop_set, if_neg (by decide), List.take_set_of_le (by decide)]

/-- The last byte of a data frame is in its checksum field and so leaves the frame's place alone (R62, R144). -/
theorem takeByte_dataOffset (h : s.cnt.toNat = 519) :
    dataOffset (takeByte sh b s).cyl (takeByte sh b s).head (takeByte sh b s).sect (takeByte sh b s) =
      dataOffset s.cyl s.head s.sect s := by
  have hkeep (k : Nat) (hk : k < 519) : (takeByte sh b s).fbufAt k = s.fbufAt k :=
    takeByte_fbufAt_of_ne (by omega)
  have hplace : (takeByte sh b s).cyl = s.cyl ∧ (takeByte sh b s).head = s.head ∧ (takeByte sh b s).sect = s.sect := by
    simp [State.cyl, State.head, State.sect, hkeep]
  obtain ⟨hcyl, hhead, hsect⟩ := hplace
  rw [hcyl, hhead, hsect]
  rfl

end LastByte

/-! ### What a step does at the output ports -/

/-- What a step from `s` to `t` issues on the two output ports, with what it does to the image and the sink (R45, R46,
R56): nothing, an event alone, the payload of a completed data frame, or `CLOSE`. -/
inductive PortEffect (s t : State) : Prop
  | silent (hout : t.out = s.out) (himage : t.image = s.image) (hopen : t.sinkOpen = s.sinkOpen) (hf : t.fsm ≠ .done)
  | event (e : Event) (hout : t.out = s.out ++ [.event e]) (himage : t.image = s.image)
      (hopen : t.sinkOpen = s.sinkOpen) (hf : t.fsm ≠ .done)
  | write (off : BitVec 41) (e : Event) (hout : t.out = s.out ++ [.sink (.write off s.payload), .event e])
      (himage : t.image = Memory.write off.toNat s.payload s.image) (hopen : t.sinkOpen = s.sinkOpen)
      (hf : t.fsm ≠ .done) (hcollect : s.fsm = .procData) (hn : s.cnt.toNat = 519)
      (hoff : dataOffset s.cyl s.head s.sect s = some off)
  | close (e : Event) (hout : t.out = s.out ++ [.sink .close, .event e]) (himage : t.image = s.image)
      (hopen : t.sinkOpen = false) (hf : t.fsm = .done)

/-- A completed data frame writes where it has a place, and reports (R144 to R146). -/
theorem portEffect_dataDone {s : State} {b : Byte} {rest : List Symbol} (hf : s.fsm = .procData)
    (hn : s.cnt.toNat = 519) : PortEffect s (dataDone (takeByte .data b (s.afterSymbol rest))) := by
  have hn' : (s.afterSymbol rest).cnt.toNat = 519 := hn
  have hopen : (dataDone (takeByte .data b (s.afterSymbol rest))).sinkOpen = s.sinkOpen := by simp
  have hdone : (dataDone (takeByte .data b (s.afterSymbol rest))).fsm ≠ .done := by simp
  rcases dataDone_cases (takeByte .data b (s.afterSymbol rest)) with ⟨-, himage, hout⟩ | ⟨off, hoff, himage, hout⟩
  · exact .event _ hout himage hopen hdone
  · rw [takeByte_payload hn'] at himage hout
    rw [takeByte_dataOffset hn'] at hoff
    exact .write off _ hout himage hopen hdone hf hn hoff

theorem StepCase.portEffect {s t : State} (h : StepCase s t) : PortEffect s t := by
  cases h with
  | reset => exact .silent rfl rfl rfl (by simp)
  | wait _ hready => exact .silent rfl rfl rfl (by rintro hf; simp [State.inReady, hf] at hready)
  | tag sh => exact .silent rfl rfl rfl (by cases sh <;> simp [collectingState])
  | byte sh _ _ _ _ hf => exact .silent rfl rfl rfl (by cases sh <;> simp [hf, collectingState])
  | illegal | stop => exact .event _ (raiseFault_out ..) rfl rfl (by simp)
  | header => exact .event _ (headerDone_out _) rfl rfl (by simp)
  | data _ _ _ hf _ hn => exact portEffect_dataDone hf hn
  | terminator => exact .close _ (endDone_out _) rfl rfl rfl

/-- Settles O40: each effect at the ports names what it appends and what it does to the image. -/
theorem imageFollowsFromTheOutputs : Obligations.ImageFollowsFromTheOutputs := by
  intro s t hstep
  cases (step_cases hstep).portEffect with
  | silent hout himage => exact ⟨[], by simpa using hout, himage, .inl rfl⟩
  | event e hout himage => exact ⟨_, hout, himage, .inr (.inl ⟨e, rfl⟩)⟩
  | write off e hout himage => exact ⟨_, hout, himage, .inr (.inr ⟨_, e, rfl⟩)⟩
  | close e hout himage => exact ⟨_, hout, himage, .inr (.inr ⟨_, e, rfl⟩)⟩

/-- Settles O43: of the effects at the ports only one has `CLOSE`, and it alone ends in `DONE`. -/
theorem sinkIsClosedExactlyOnEnteringDone : Obligations.SinkIsClosedExactlyOnEnteringDone := by
  intro s t hstep
  cases (step_cases hstep).portEffect with
  | silent hout _ hopen hf | event _ hout _ hopen hf | write _ _ hout _ hopen hf =>
    exact ⟨iff_of_false (by simp [hout]) hf, fun h => absurd h hf, fun _ => hopen⟩
  | close _ hout _ hopen hf => exact ⟨iff_of_true (by simp [hout]) hf, fun _ => hopen, fun h => absurd hf h⟩

/-! ### The block a data frame writes -/

/-- No LBA is greater than that of the last sector of the largest geometry (R163). -/
theorem lba_toNat_le {mh ms : Byte} {cy : Half} {hd sc : Byte} {l : BitVec 32} (h : lba mh ms cy hd sc = some l) :
    l.toNat ≤ 0xFEFFFFFF := by
  have hcy := cy.isLt
  have hmh := mh.isLt
  have hhd := hd.isLt
  have hms := ms.isLt
  have hsc := sc.isLt
  have htrack : trackIndex mh cy hd ≤ 65535 * 256 + 255 :=
    Nat.add_le_add (Nat.mul_le_mul (by omega) (by omega)) (by omega)
  have hnat : lbaNat mh ms cy hd sc ≤ (65535 * 256 + 255) * 255 + 254 :=
    Nat.add_le_add (Nat.mul_le_mul htrack (by omega)) (by omega)
  unfold lba at h
  split at h
  · cases h
  · cases h
    rw [BitVec.toNat_ofNat]
    omega

/-- A data frame has a place only after a header, and it is that of its LBA (R144, R146). -/
theorem dataOffset_eq_some {cy : Half} {hd sc : Byte} {s : State} {off : BitVec 41}
    (h : dataOffset cy hd sc s = some off) :
    s.hdrSeen = true ∧ ∃ l, lba s.readMaxHead s.readMaxSector cy hd sc = some l ∧ off = offset l := by
  obtain ⟨l, hl, rfl⟩ := Option.map_eq_some_iff.1 h
  unfold dataLba at hl
  split at hl
  · rename_i hwritten
    exact ⟨(Bool.and_eq_true_iff.1 hwritten).1, l, hl, rfl⟩
  · cases hl

theorem byteAt_payload {s : State} {j : Nat} (h : j < 512) : byteAt s.payload j = s.fbufAt (6 + j) := by
  simp [byteAt, State.fbufAt, State.payload, List.getD_eq_getElem?_getD, List.getElem?_take_of_lt h]

/-- Settles O42: the one effect at the ports with a `WRITE` is a completed data frame's, at the place of its LBA. -/
theorem everyWriteIsAWholeAlignedBlock : Obligations.EveryWriteIsAWholeAlignedBlock := by
  intro s t off data hstep hmem
  cases (step_cases hstep).portEffect with
  | silent hout | event _ hout | close _ hout => simp [hout] at hmem
  | write off' e hout _ _ _ hf hn hoff =>
    obtain ⟨rfl, rfl⟩ : off = off' ∧ data = s.payload := by simpa [hout] using hmem
    obtain ⟨hseen, l, hl, rfl⟩ := dataOffset_eq_some hoff
    have hle := lba_toNat_le hl
    rw [offset_toNat]
    exact ⟨hf, hn, hseen, s.payload_length, fun j hj => byteAt_payload hj, Nat.dvd_mul_right 512 _, by omega⟩

end Sys2Proof.Machine
end

section
/-! PROOFS. Decoder and encoder agree (O1 to O4, O6): the two bytes of a 16-bit field, the fields of a frame, the frame
at the head of a byte sequence, the tag map. -/

namespace Sys2Proof

/-! ### The two bytes of a 16-bit field -/

theorem le16_toNat (lo hi : Byte) : (le16 lo hi).toNat = lo.toNat + 256 * hi.toNat := by
  rw [le16, BitVec.toNat_append, Nat.shiftLeft_eq_mul_pow, Nat.mul_comm, ← Nat.two_pow_add_eq_or_of_lt lo.isLt]
  omega

@[simp] theorem le16_lowByte_highByte (v : Half) : le16 (lowByte v) (highByte v) = v := by
  apply BitVec.eq_of_toNat_eq
  simp only [le16_toNat, lowByte, highByte, BitVec.extractLsb'_toNat, Nat.shiftRight_eq_div_pow]
  omega

/-- Settles O6: a field's number from its bytes, and its bytes from the field. -/
theorem le16AssemblesLittleEndian : Obligations.Le16AssemblesLittleEndian :=
  ⟨fun lo hi => ⟨le16_toNat lo hi, lowByte_le16 lo hi, highByte_le16 lo hi⟩, le16_lowByte_highByte⟩

/-! ### The bytes of a frame -/

theorem byteAt_append_left {l r : List Byte} {k : Nat} (h : k < l.length) : byteAt (l ++ r) k = byteAt l k := by
  simp [byteAt, List.getD_eq_getElem?_getD, List.getElem?_append_left h]

theorem byteAt_append_right {l r : List Byte} {n k : Nat} (h : l.length = n) :
    byteAt (l ++ r) (n + k) = byteAt r k := by
  simp [byteAt, List.getD_eq_getElem?_getD, List.getElem?_append_right, h]

/-- The six bytes before a header's checksum and before a data frame's payload (R61, R62). -/
theorem take_six_eq {l : List Byte} (h : 6 ≤ l.length) :
    l.take 6 = [byteAt l 0, byteAt l 1, byteAt l 2, byteAt l 3, byteAt l 4, byteAt l 5] := by
  match l, h with
  | _ :: _ :: _ :: _ :: _ :: _ :: _, _ => rfl

theorem drop_eq_byteAt_cons {l : List Byte} {k : Nat} (h : k < l.length) : l.drop k = byteAt l k :: l.drop (k + 1) := by
  rw [byteAt_eq_getElem h, List.drop_eq_getElem_cons h]

/-- The checksum field is the last two bytes of a header and of a data frame (R61, R62). -/
theorem drop_eq_lastTwo {l : List Byte} {k : Nat} (h : l.length = k + 2) :
    l.drop k = [byteAt l k, byteAt l (k + 1)] := by
  rw [drop_eq_byteAt_cons (by omega), drop_eq_byteAt_cons (by omega), List.drop_eq_nil_of_le (by omega)]

/-! ### The fields of a frame and its bytes -/

theorem encode_decodeHeader {frame : List Byte} (hlen : frame.length = 8) (htag : byteAt frame 0 = Config.tagHdr) :
    encode (decodeHeader frame) = frame := by
  calc
    encode (decodeHeader frame) = frame.take 6 ++ frame.drop 6 := by
      rw [take_six_eq (by omega), drop_eq_lastTwo hlen, htag]
      simp [encode, decodeHeader]
    _ = frame := List.take_append_drop 6 frame

theorem encode_decodeData {frame : List Byte} (hlen : frame.length = 520) (htag : byteAt frame 0 = Config.tagDat) :
    encode (decodeData frame) = frame := by
  calc
    encode (decodeData frame) = frame.take 6 ++ ((frame.drop 6).take 512 ++ (frame.drop 6).drop 512) := by
      rw [List.drop_drop, take_six_eq (by omega), drop_eq_lastTwo hlen, htag]
      simp [encode, decodeData]
    _ = frame := by rw [List.take_append_drop, List.take_append_drop]

/-- The decoder drops no bit of the frame it reads. -/
theorem encode_decodeShape {sh : FrameShape} {frame : List Byte} (hlen : frame.length = sh.len)
    (htag : shapeOfTag (byteAt frame 0) = some sh) : encode (decodeShape sh frame) = frame := by
  cases sh with
  | header => exact encode_decodeHeader hlen (shapeOfTag_eq_header.1 htag)
  | data => exact encode_decodeData hlen (shapeOfTag_eq_data.1 htag)
  | terminator =>
    obtain ⟨b, rfl⟩ := List.length_eq_one_iff.1 hlen
    exact congrArg (fun x => [x]) (shapeOfTag_eq_terminator.1 htag).symm

@[simp] theorem wf_dat {st : Byte} {c : Half} {h n : Byte} {p : List Byte} {crc : Half} :
    (Instr.dat st c h n p crc).wf = true ↔ p.length = 512 := by
  simp [Instr.wf]

theorem decodeShape_wf {sh : FrameShape} {frame : List Byte} (hlen : frame.length = sh.len) :
    (decodeShape sh frame).wf = true := by
  cases sh with
  | header | terminator => rfl
  | data => exact wf_dat.2 (by simp [hlen])

/-- The checksum field of a header is its bytes 6 and 7 (R61). -/
theorem le16_encode_hdr_crc (st : Byte) (mc : Half) (mh ms : Byte) (crc : Half) :
    le16 (byteAt (encode (.hdr st mc mh ms crc)) 6) (byteAt (encode (.hdr st mc mh ms crc)) 7) = crc :=
  le16_lowByte_highByte crc

/-- The checksum field of a data frame is its bytes 518 and 519, after the payload (R62). -/
theorem le16_encode_dat_crc {st : Byte} {c : Half} {h n : Byte} {p : List Byte} {crc : Half} (hp : p.length = 512) :
    le16 (byteAt (encode (.dat st c h n p crc)) 518) (byteAt (encode (.dat st c h n p crc)) 519) = crc := by
  have hbody : ([Config.tagDat, st, lowByte c, highByte c, h, n] ++ p).length = 518 := by simp [hp]
  calc
    le16 (byteAt (encode (.dat st c h n p crc)) (518 + 0)) (byteAt (encode (.dat st c h n p crc)) (518 + 1))
      = le16 (lowByte crc) (highByte crc) := by
      rw [encode, byteAt_append_right hbody, byteAt_append_right hbody, byteAt_cons_zero, byteAt_cons_succ,
        byteAt_cons_zero]
    _ = crc := le16_lowByte_highByte crc

theorem decodeShape_encode {i : Instr} (h : i.wf = true) : decodeShape i.shape (encode i) = i := by
  cases i with
  | hdr st mc mh ms crc => simp [Instr.shape, decodeShape, decodeHeader, encode]
  | dat st c hd n p crc =>
    have hp := wf_dat.1 h
    simp only [Instr.shape, decodeShape, decodeData, le16_encode_dat_crc hp]
    simp [encode, hp]
  | endOfTransfer => rfl

/-! ### The frame at the head of a byte sequence -/

section Tag

variable {tag : Byte} {rest : List Byte} {sh : FrameShape}

theorem decode_of_shapeOfTag_eq_none (ht : shapeOfTag tag = none) :
    decode (tag :: rest) = .error (.unknownTag tag) := by
  simp only [decode, ht]

theorem decode_of_short (ht : shapeOfTag tag = some sh) (hlen : (tag :: rest).length < sh.len) :
    decode (tag :: rest) = .error (.truncated sh (tag :: rest).length) := by
  simp only [decode, ht, if_pos hlen]

theorem decode_of_long (ht : shapeOfTag tag = some sh) (hlen : sh.len ≤ (tag :: rest).length) :
    decode (tag :: rest) = .ok (decodeShape sh (tag :: rest), (tag :: rest).drop sh.len) := by
  simp only [decode, ht, if_neg (Nat.not_lt.2 hlen)]

end Tag

/-- A decoder reads nothing past the frame's length. -/
theorem decodeShape_append {sh : FrameShape} {frame rest : List Byte} (hlen : frame.length = sh.len) :
    decodeShape sh (frame ++ rest) = decodeShape sh frame := by
  cases sh with
  | header =>
    have hlen : frame.length = 8 := hlen
    simp [decodeShape, decodeHeader, byteAt_append_left, hlen]
  | data =>
    have hlen : frame.length = 520 := hlen
    simp [decodeShape, decodeData, byteAt_append_left, hlen, List.drop_append_of_le_length,
      List.take_append_of_le_length]
  | terminator => rfl

/-- Any bytes of a shape's length that begin with its tag are a frame, whatever follows them (R64, R65, R83). -/
theorem decode_append {sh : FrameShape} {frame : List Byte} (rest : List Byte) (hlen : frame.length = sh.len)
    (htag : shapeOfTag (byteAt frame 0) = some sh) : decode (frame ++ rest) = .ok (decodeShape sh frame, rest) := by
  cases frame with
  | nil => cases sh <;> cases hlen
  | cons tag body =>
    have hle : sh.len ≤ (tag :: (body ++ rest)).length := by simp [← hlen]
    calc
      decode (tag :: (body ++ rest))
        = .ok (decodeShape sh (tag :: body ++ rest), (tag :: body ++ rest).drop sh.len) := decode_of_long htag hle
      _ = .ok (decodeShape sh (tag :: body), rest) := by rw [decodeShape_append hlen, List.drop_left' hlen]

/-- Nothing else is one: what `decode` answers it read from such a frame. -/
theorem exists_frame_of_decode_eq_ok {bytes rest : List Byte} {i : Instr} (h : decode bytes = .ok (i, rest)) :
    ∃ sh frame, frame.length = sh.len ∧ shapeOfTag (byteAt frame 0) = some sh ∧ bytes = frame ++ rest ∧
      i = decodeShape sh frame := by
  cases bytes with
  | nil => cases h
  | cons tag body =>
    cases ht : shapeOfTag tag with
    | none => rw [decode_of_shapeOfTag_eq_none ht] at h; cases h
    | some sh =>
      rcases Nat.lt_or_ge (tag :: body).length sh.len with hlen | hlen
      · rw [decode_of_short ht hlen] at h; cases h
      · rw [decode_of_long ht hlen] at h
        cases h
        have htake : ((tag :: body).take sh.len).length = sh.len := List.length_take_of_le hlen
        refine ⟨sh, (tag :: body).take sh.len, htake, by cases sh <;> exact ht, (List.take_append_drop _ _).symm, ?_⟩
        rw [← decodeShape_append (rest := (tag :: body).drop sh.len) htake, List.take_append_drop]

theorem encode_length_and_shape (i : Instr) : Laws.FrameLength.Statement i := by
  cases i with
  | hdr st mc mh ms crc => exact Laws.FrameLength.hdr st mc mh ms crc
  | dat st c h n p crc => exact Laws.FrameLength.dat st c h n p crc
  | endOfTransfer => exact Laws.FrameLength.endOfTransfer

/-- Settles O1: an encoded frame has its shape's length and tag, and its fields are read back from it. -/
theorem decodeReadsBackEveryEncodedFrame : Obligations.DecodeReadsBackEveryEncodedFrame := by
  intro i rest hwf
  obtain ⟨hlen, htag⟩ := encode_length_and_shape i hwf
  rw [decode_append rest hlen htag, decodeShape_encode hwf]

/-- Settles O2: the input is the frame that was read and the bytes after it. -/
theorem encodeWritesBackEveryDecodedFrame : Obligations.EncodeWritesBackEveryDecodedFrame := by
  intro bytes i rest h
  obtain ⟨sh, frame, hlen, htag, rfl, rfl⟩ := exists_frame_of_decode_eq_ok h
  exact ⟨decodeShape_wf hlen, by rw [encode_decodeShape hlen htag]⟩

/-- Settles O4: the bytes are the encodings of these frames (O1); of the payload only its length counts. -/
theorem framesWrittenOutFromTheLayoutTablesDecode : Obligations.FramesWrittenOutFromTheLayoutTablesDecode := by
  have hdata : ∀ p : List Byte, p.length = 512 →
      decode ([0x01#8, 0x80#8, 0xFF#8, 0x03#8, 0x0A#8, 0x0B#8] ++ p ++ [0x86#8, 0x93#8])
        = .ok (.dat 0x80#8 0x03FF#16 0x0A#8 0x0B#8 p 0x9386#16, []) := fun p hp => by
    simpa [encode, lowByte, highByte] using
      decodeReadsBackEveryEncodedFrame (.dat 0x80#8 0x03FF#16 0x0A#8 0x0B#8 p 0x9386#16) [] (wf_dat.2 hp)
  exact ⟨decodeReadsBackEveryEncodedFrame (.hdr _ 0x1234#16 _ _ 0x3ACC#16) [] rfl, hdata _ List.length_replicate,
    decodeReadsBackEveryEncodedFrame .endOfTransfer _ rfl⟩

/-! ### The tag map -/

theorem shapeOfTag_eq_none {tag : Byte} : shapeOfTag tag = none ↔ 2 ≤ tag.toNat ∧ tag.toNat ≤ 0xFE := by
  unfold shapeOfTag
  split_ifs with h0 h1 h2
  · subst h0; decide
  · subst h1; decide
  · subst h2; decide
  · exact iff_of_true rfl (by bv_omega)

theorem decode_cons_eq_unknownTag {tag : Byte} {rest : List Byte} :
    decode (tag :: rest) = .error (.unknownTag tag) ↔ shapeOfTag tag = none := by
  refine ⟨fun h => ?_, decode_of_shapeOfTag_eq_none⟩
  cases ht : shapeOfTag tag with
  | none => rfl
  | some sh =>
    rcases Nat.lt_or_ge (tag :: rest).length sh.len with hlen | hlen
    · rw [decode_of_short ht hlen] at h; cases h
    · rw [decode_of_long ht hlen] at h; cases h

/-- Settles O3: both refusals are the tag map's. -/
theorem tagMapAndIllegalTags : Obligations.TagMapAndIllegalTags :=
  ⟨rfl, rfl, rfl, fun _ _ => ⟨decode_cons_eq_unknownTag.trans shapeOfTag_eq_none,
    Option.map_eq_none_iff.trans shapeOfTag_eq_none⟩⟩

end Sys2Proof
end

section
/-! PROOFS. The codec's sent frames: the checksum a sender places is the one the receiver computes (O5). -/

namespace Sys2Proof.Machine

theorem crcOk_self (crc : Half) : crcOk crc crc = true := by simp [crcOk]

/-- The first six bytes of a header hold everything but its checksum, so their CRC does not depend on it (R76, R94). -/
theorem crc16_take_encode_hdr (st : Byte) (mc : Half) (mh ms : Byte) (crc crc' : Half) :
    crc16 ((encode (.hdr st mc mh ms crc)).take 6) = checksumOf (.hdr st mc mh ms crc') := rfl

/-- The first 518 bytes of a data frame hold everything but its checksum (R77, R94). -/
theorem crc16_take_encode_dat (st : Byte) (c : Half) (h n : Byte) {p : List Byte} (crc crc' : Half)
    (hp : p.length = 512) :
    crc16 ((encode (.dat st c h n p crc)).take 518) = checksumOf (.dat st c h n p crc') := by
  have hbody : ([Config.tagDat, st, lowByte c, highByte c, h, n] ++ p).length = 518 := by simp [hp]
  rw [checksumOf, encode, encode, List.take_left' hbody, List.take_left' (by simp)]

/-- Settles O5: the fields are read back (O1), and the CRC of the covered bytes is the checksum that was placed. -/
theorem sentFramesDecodeToTheirFieldsWithGoodChecksum : Obligations.SentFramesDecodeToTheirFieldsWithGoodChecksum := by
  constructor
  · intro st c h n
    refine ⟨?_, _, decodeShape_encode (i := sentHeader st c h n) rfl⟩
    simp only [decodeHeaderVerdict, encodeHeader, sentHeader, le16_encode_hdr_crc, covered_header,
      crc16_take_encode_hdr _ _ _ _ _ 0#16, crcOk_self]
  · intro st c h n p hp
    refine ⟨?_, _, decodeShape_encode (i := sentData st c h n p) (wf_dat.2 hp)⟩
    simp only [decodeDataVerdict, encodeData, sentData, le16_encode_dat_crc hp, covered_data,
      crc16_take_encode_dat _ _ _ _ _ 0#16 hp, crcOk_self]

end Sys2Proof.Machine
end

section
/-! PROOFS. The checksum unit (O7, O8, O9): the shift of R91 is linear, so is everything built from it, and while no set
bit leaves the register at the top it is a left shift. -/

namespace Sys2Proof.Machine

/-! ### The shift -/

/-- What the bit shifted out at the top puts back into the register. -/
def crcFeedback (top : Bool) : Half := if top then Config.crcPoly else 0#16

theorem crcFeedback_xor : ∀ p q : Bool, crcFeedback (p ^^ q) = crcFeedback p ^^^ crcFeedback q := by decide

theorem crcShift_eq_xor (r : Half) : crcShift r = (r <<< 1) ^^^ crcFeedback r.msb := by
  cases h : r.msb <;> simp [crcShift, crcFeedback, h]

theorem crcShift_of_msb_false {r : Half} (h : r.msb = false) : crcShift r = r <<< 1 := by simp [crcShift, h]

theorem crcShift_xor (a b : Half) : crcShift (a ^^^ b) = crcShift a ^^^ crcShift b := by
  rw [crcShift_eq_xor, crcShift_eq_xor, crcShift_eq_xor, BitVec.shiftLeft_xor_distrib, BitVec.msb_xor,
    crcFeedback_xor]
  ac_rfl

theorem crcShift_iterate_xor (n : Nat) (a b : Half) :
    crcShift^[n] (a ^^^ b) = crcShift^[n] a ^^^ crcShift^[n] b := by
  induction n generalizing a b with
  | zero => rfl
  | succ n ih => rw [Function.iterate_succ_apply, crcShift_xor, ih]; rfl

/-- While no set bit leaves the register at the top, shifting it never meets the polynomial. -/
theorem crcShift_iterate_eq_shiftLeft {n : Nat} {r : Half} (h : r.toNat * 2 ^ n < 2 ^ 16) :
    crcShift^[n] r = r <<< n := by
  induction n generalizing r with
  | zero => simp
  | succ n ih =>
    have hr : r.toNat * 2 * 2 ^ n < 2 ^ 16 := by rwa [Nat.pow_succ', ← Nat.mul_assoc] at h
    have hhalf : r.toNat * 2 < 2 ^ 16 := Nat.lt_of_le_of_lt (Nat.le_mul_of_pos_right _ (Nat.two_pow_pos n)) hr
    have hdouble : (r <<< 1).toNat = r.toNat * 2 := by
      rw [BitVec.toNat_shiftLeft, Nat.shiftLeft_eq, Nat.pow_one, Nat.mod_eq_of_lt hhalf]
    have hmsb : r.msb = false := by rw [BitVec.msb_eq_false_iff_two_mul_lt]; omega
    rw [Function.iterate_succ_apply, crcShift_of_msb_false hmsb, ih (by rwa [hdouble]), ← BitVec.shiftLeft_add,
      Nat.add_comm]

/-! ### The update by one byte -/

theorem crc16Update_eq_iterate (c : Half) (b : Byte) :
    crc16Update c b = crcShift^[8] (c ^^^ (b.zeroExtend 16 <<< 8)) := rfl

theorem crc16Update_xor (c d : Half) (a b : Byte) :
    crc16Update (c ^^^ d) (a ^^^ b) = crc16Update c a ^^^ crc16Update d b := by
  have hentry : (c ^^^ d) ^^^ ((a ^^^ b).zeroExtend 16 <<< 8)
      = (c ^^^ (a.zeroExtend 16 <<< 8)) ^^^ (d ^^^ (b.zeroExtend 16 <<< 8)) := by
    simp only [BitVec.truncate_eq_setWidth, BitVec.setWidth_xor, BitVec.shiftLeft_xor_distrib]; ac_rfl
  rw [crc16Update_eq_iterate, hentry, crcShift_iterate_xor]; rfl

theorem crc16Update_zero_zero : crc16Update 0#16 0#8 = 0#16 := by decide

/-- What enters the eight shifts has the register's high byte and the new byte on top, and its low byte below. -/
theorem crc16Update_entry (c : Half) (b : Byte) :
    c ^^^ (b.zeroExtend 16 <<< 8) = (lowByte c).zeroExtend 16 ^^^ ((highByte c ^^^ b).zeroExtend 16 <<< 8) := by
  apply BitVec.eq_of_getLsbD_eq
  intro i hi
  rcases Nat.lt_or_ge i 8 with h | h
  · simp [lowByte, h, hi]
  · have hbelow : i - 8 < 8 := by omega
    simp [lowByte, highByte, Nat.not_lt.2 h, hi, hbelow, Nat.add_sub_cancel' h]

theorem lowByte_shiftLeft (c : Half) : (lowByte c).zeroExtend 16 <<< 8 = c <<< 8 := by
  apply BitVec.eq_of_getLsbD_eq
  intro i hi
  have hbelow : i - 8 < 8 := by omega
  simp [lowByte, hbelow, Nat.lt_of_lt_of_le hbelow]

/-- R93: the low byte only moves up, and the table holds what becomes of the rest. -/
theorem crc16Update_eq_table (c : Half) (b : Byte) : crc16Update c b = (c <<< 8) ^^^ crcTable (highByte c ^^^ b) := by
  have hlow : crcShift^[8] ((lowByte c).zeroExtend 16) = c <<< 8 := by
    rw [crcShift_iterate_eq_shiftLeft (by simp; omega), lowByte_shiftLeft]
  have htable : crcTable (highByte c ^^^ b) = crcShift^[8] ((highByte c ^^^ b).zeroExtend 16 <<< 8) := by
    rw [crcTable, crc16Update_eq_iterate, BitVec.zero_xor]
  rw [crc16Update_eq_iterate, crc16Update_entry, crcShift_iterate_xor, hlow, htable]

theorem highByte_eq_setWidth (c : Half) : highByte c = (c >>> 8).setWidth 8 := by
  apply BitVec.eq_of_getLsbD_eq
  intro i hi
  simp [highByte]

/-- Settles O8: the update's equation over the table, and eighteen evaluations of R91. -/
theorem tableFormEqualsTheBitwiseUpdate : Obligations.TableFormEqualsTheBitwiseUpdate := by
  refine ⟨fun c b => ⟨?_, (crc16Update_eq_table c b).symm⟩, by decide, by decide, by decide⟩
  rw [← highByte_eq_setWidth, crc16Update_eq_table]

/-! ### The checksum of a byte sequence -/

/-- Settles O7: a longer sequence is one more update. -/
theorem checksumGrowsByteByByte : Obligations.ChecksumGrowsByteByByte := ⟨rfl, crc16_concat, by decide⟩

theorem crc16From_xor {xs ys : List Byte} (h : xs.length = ys.length) (c d : Half) :
    crc16From (c ^^^ d) (List.zipWith (fun a b => a ^^^ b) xs ys) = crc16From c xs ^^^ crc16From d ys := by
  induction xs generalizing c d ys with
  | nil => obtain rfl := List.length_eq_zero_iff.1 h.symm; rfl
  | cons x xs ih =>
    cases ys with
    | nil => cases h
    | cons y ys =>
      simp only [List.zipWith_cons_cons, crc16From_cons, crc16Update_xor]
      exact ih (Nat.succ.inj h) _ _

theorem crc16_replicate_zero (n : Nat) : crc16 (List.replicate n 0x00#8) = 0x0000#16 := by
  induction n with
  | zero => rfl
  | succ n ih => rw [List.replicate_succ', crc16_concat, ih, crc16Update_zero_zero]

theorem crc16_append (xs ys : List Byte) : crc16 (xs ++ ys) = crc16From (crc16 xs) ys := crc16From_append _ _ _

/-- Settles O9: each update is linear, and zero bytes leave the register at its initial value. -/
theorem checksumIsLinear : Obligations.ChecksumIsLinear := by
  refine ⟨fun x y h => crc16From_xor h 0#16 0#16, crc16_replicate_zero, fun n x => ?_⟩
  rw [crc16_append, crc16_replicate_zero]; rfl

end Sys2Proof.Machine
end

section
/-! PROOFS. Single flipped bits (O10): nothing that enters the register is lost, so sequences that differ in one byte
alone have different checksums. -/

namespace Sys2Proof.Machine

/-! ### No step of the checksum loses anything -/

/-- The polynomial has its lowest bit set, so the bit that was shifted out can be read back there. -/
theorem crcShift_getLsbD_zero (r : Half) : (crcShift r).getLsbD 0 = r.msb := by
  cases h : r.msb <;> simp [crcShift, h]

theorem crcShift_injective : Function.Injective crcShift := by
  intro a b h
  have hmsb : a.msb = b.msb := by rw [← crcShift_getLsbD_zero, h, crcShift_getLsbD_zero]
  have hshift : a <<< 1 = b <<< 1 := by
    rw [crcShift_eq_xor, crcShift_eq_xor, hmsb] at h
    exact (BitVec.xor_left_inj _).1 h
  have hlow : a.toNat * 2 % 2 ^ 16 = b.toNat * 2 % 2 ^ 16 := by
    simpa [Nat.shiftLeft_eq] using congrArg BitVec.toNat hshift
  rw [BitVec.msb_eq_decide, BitVec.msb_eq_decide, decide_eq_decide] at hmsb
  apply BitVec.eq_of_toNat_eq
  omega

theorem crc16Update_injective_register {c d : Half} {b : Byte} (h : crc16Update c b = crc16Update d b) : c = d :=
  (BitVec.xor_left_inj _).1 (crcShift_injective.iterate 8 h)

theorem crc16Update_injective_byte {c : Half} {a b : Byte} (h : crc16Update c a = crc16Update c b) : a = b := by
  have hentry : a.zeroExtend 16 <<< 8 = b.zeroExtend 16 <<< 8 :=
    (BitVec.xor_right_inj _).1 (crcShift_injective.iterate 8 h)
  have hnat : a.toNat * 2 ^ 8 % 2 ^ 16 = b.toNat * 2 ^ 8 % 2 ^ 16 := by
    simpa [Nat.shiftLeft_eq] using congrArg BitVec.toNat hentry
  apply BitVec.eq_of_toNat_eq
  omega

theorem crc16From_injective {bs : List Byte} {c d : Half} (h : crc16From c bs = crc16From d bs) : c = d := by
  induction bs generalizing c d with
  | nil => exact h
  | cons b bs ih => exact crc16Update_injective_register (ih (by simpa using h))

/-! ### One byte changed -/

theorem crc16From_set_ne {l : List Byte} {k : Nat} {v : Byte} (hk : k < l.length) (hv : v ≠ byteAt l k) (c : Half) :
    crc16From c (l.set k v) ≠ crc16From c l := by
  induction l generalizing k c with
  | nil => cases hk
  | cons b bs ih =>
    cases k with
    | zero =>
      intro h
      rw [List.set_cons_zero, crc16From_cons, crc16From_cons] at h
      exact hv (crc16Update_injective_byte (crc16From_injective h))
    | succ k =>
      rw [List.set_cons_succ, crc16From_cons, crc16From_cons]
      exact ih (Nat.lt_of_succ_lt_succ hk) hv _

theorem crcOk_iff {received computed : Half} : crcOk received computed = true ↔ received = computed := beq_iff_eq

theorem le16_inj {lo hi lo' hi' : Byte} : le16 lo hi = le16 lo' hi' ↔ lo = lo' ∧ hi = hi' := by
  refine ⟨fun h => ⟨?_, ?_⟩, fun ⟨hlo, hhi⟩ => by rw [hlo, hhi]⟩
  · rw [← lowByte_le16 lo hi, h, lowByte_le16]
  · rw [← highByte_le16 lo hi, h, highByte_le16]

/-- `crc_ok` of a frame whose checksum field follows its first `n` bytes (R67, R95). -/
def frameCrcOk (n : Nat) (frame : List Byte) : Bool :=
  crcOk (le16 (byteAt frame n) (byteAt frame (n + 1))) (crc16 (frame.take n))

theorem decodeHeaderVerdict_crcOk (b : List Byte) : (decodeHeaderVerdict b).crcOk = frameCrcOk 6 b := rfl

theorem decodeDataVerdict_crcOk (b : List Byte) : (decodeDataVerdict b).crcOk = frameCrcOk 518 b := rfl

/-- A changed covered byte changes the CRC and not the field; a changed byte of the field changes the field alone. -/
theorem frameCrcOk_set_eq_false {n k : Nat} {frame : List Byte} {v : Byte} (hlen : frame.length = n + 2)
    (hk : k < n + 2) (hv : v ≠ byteAt frame k) (hok : frameCrcOk n frame = true) :
    frameCrcOk n (frame.set k v) = false := by
  rw [frameCrcOk, crcOk_iff] at hok
  rw [frameCrcOk, Bool.eq_false_iff, Ne, crcOk_iff]
  rcases Nat.lt_or_ge k n with hcov | hfield
  · have hbyte : byteAt (frame.take n) k = byteAt frame k := by
      simp [byteAt, List.getD_eq_getElem?_getD, hcov]
    rw [byteAt_set_of_ne (by omega), byteAt_set_of_ne (by omega), hok, List.take_set]
    exact (crc16From_set_ne (by rw [List.length_take]; omega) (by rwa [hbyte]) _).symm
  · rw [List.take_set_of_le hfield, ← hok, le16_inj]
    rintro ⟨hlo, hhi⟩
    obtain rfl | rfl : k = n ∨ k = n + 1 := by omega
    · exact hv (by rw [← hlo, byteAt_set_self (by omega)])
    · exact hv (by rw [← hhi, byteAt_set_self (by omega)])

/-! ### One bit flipped -/

theorem xor_bit_ne (b : Byte) {j : Nat} (hj : j < 8) : b ^^^ (1#8 <<< j) ≠ b := by
  intro h
  have hbit : (b ^^^ (1#8 <<< j)).getLsbD j = b.getLsbD j := by rw [h]
  simp [hj] at hbit

theorem crc16_flipBit_ne {l : List Byte} {k j : Nat} (hk : k < l.length) (hj : j < 8) :
    crc16 (flipBit l k j) ≠ crc16 l :=
  crc16From_set_ne hk (xor_bit_ne _ hj) _

theorem frameCrcOk_flipBit_eq_false {n k j : Nat} {frame : List Byte} (hlen : frame.length = n + 2) (hk : k < n + 2)
    (hj : j < 8) (hok : frameCrcOk n frame = true) : frameCrcOk n (flipBit frame k j) = false :=
  frameCrcOk_set_eq_false hlen hk (xor_bit_ne _ hj) hok

/-- Settles O10: a flipped bit changes its byte.  For the cancelling case a header's covered bytes carry the polynomial
itself, 0x11021, whose CRC is that of zeros. -/
theorem anySingleFlippedBitIsDetected : Obligations.AnySingleFlippedBitIsDetected := by
  refine ⟨fun _ _ _ => crc16_flipBit_ne, fun bytes k j hlen hk hj hok => ?_, fun bytes k j hlen hk hj hok => ?_,
    List.replicate 8 0x00#8, [0x00#8, 0x00#8, 0x00#8, 0x01#8, 0x10#8, 0x21#8, 0x00#8, 0x00#8],
    rfl, rfl, by decide, rfl, by decide, by decide⟩
  · rw [decodeHeaderVerdict_crcOk] at hok ⊢
    exact frameCrcOk_flipBit_eq_false hlen hk hj hok
  · rw [decodeDataVerdict_crcOk] at hok ⊢
    exact frameCrcOk_flipBit_eq_false hlen hk hj hok

end Sys2Proof.Machine
end

section
/-! PROOFS. A whole frame and its instruction (O46, O47, O23): what `FBUF` holds once the last byte of a frame is stored
decodes to the frame's instruction, and that instruction is what runs. -/

namespace Sys2Proof.Machine

/-! ### The instruction in the buffer -/

/-- Every instruction has a next state: no meaning ends in a fault or a refusal. -/
theorem exists_exec_eq_next (i : Instr) (s : State) : ∃ t, exec i s = .next t := by
  cases i with
  | hdr st mc mh ms crc => exact ⟨_, exec_hdr st mc mh ms crc s⟩
  | dat st cy hd sc pl crc => exact ⟨_, exec_dat st cy hd sc pl crc s⟩
  | endOfTransfer => exact ⟨_, exec_endOfTransfer s⟩

/-- Running a frame is running the instruction in the buffer, and control goes on after it (R112, R115, R117). -/
theorem runFrame_of_exec_eq_next {sh : FrameShape} {i : Instr} {s t : State} (hi : s.frame sh = i)
    (h : exec i s = .next t) : runFrame sh s = .next (resumeAfter sh t) := by
  simp only [runFrame, hi, h]

/-- Control after an instruction: the terminator's sets `STATE` itself, the others return to `AWAIT_TAG`. -/
theorem resumeAfter_shape (i : Instr) (t : State) :
    resumeAfter i.shape t = if i = .endOfTransfer then t else { t with fsm := .awaitTag, cnt := 0#10 } := by
  cases i <;> rfl

theorem resumeAfter_of_ne_terminator {sh : FrameShape} (hs : sh ≠ .terminator) (t : State) :
    resumeAfter sh t = t.toAwaitTag := by
  cases sh with
  | header | data => rfl
  | terminator => exact absurd rfl hs

theorem frameShape_len_pos (sh : FrameShape) : 0 < sh.len := by cases sh <;> decide

/-- A header or data frame has a byte after its tag (R60). -/
theorem two_le_frameShape_len {sh : FrameShape} (hs : sh ≠ .terminator) : 2 ≤ sh.len := by
  cases sh with
  | header | data => decide
  | terminator => exact absurd rfl hs

/-- The two ways to be inside a frame, for both shapes at once (R11). -/
theorem collectingState_of_fsm {s : State} {sh : FrameShape}
    (h : s.fsm = .procHeader ∧ sh = .header ∨ s.fsm = .procData ∧ sh = .data) :
    sh ≠ .terminator ∧ s.fsm = collectingState sh := by
  rcases h with ⟨hf, rfl⟩ | ⟨hf, rfl⟩
  · exact ⟨by decide, hf⟩
  · exact ⟨by decide, hf⟩

theorem frameShape_len_injective {sh sh' : FrameShape} (h : sh.len = sh'.len) : sh = sh' := by
  revert h
  cases sh <;> cases sh' <;> decide

/-- A frame has room in the buffer, so loading it keeps the bytes past its end. -/
theorem bufferLoad_bytes_of_le {bs : List Byte} {f : FrameBuffer} (h : bs.length ≤ 520) :
    (bufferLoad bs f).bytes = bs ++ f.bytes.drop bs.length := by
  rw [bufferLoad_bytes, List.take_of_length_le (by simp; omega)]

theorem loadFrame_fbufAt {sh : FrameShape} {bs : List Byte} {s : State} {k : Nat} (h : bs.length ≤ 520)
    (hk : k < bs.length) : (loadFrame sh bs s).fbufAt k = byteAt bs k := by
  rw [State.fbufAt, loadFrame_fbuf, bufferLoad_bytes_of_le h, byteAt_append_left hk]

/-- The buffer's instruction is that of the bytes loaded into it (R83). -/
theorem loadFrame_frame {sh : FrameShape} {bs : List Byte} {s : State} (h : bs.length = sh.len) :
    (loadFrame sh bs s).frame sh = decodeShape sh bs := by
  rw [State.frame, loadFrame_fbuf, bufferLoad_bytes_of_le (h ▸ frameShape_len_le sh), decodeShape_append h]

/-- The buffer's instruction is what `decode` reads from the frame at its head, whatever stands behind that. -/
theorem frame_eq_of_decode_eq_ok {sh : FrameShape} {i : Instr} {s : State}
    (h : decode (s.fbuf.bytes.take sh.len) = .ok (i, [])) : s.frame sh = i := by
  have htake : (s.fbuf.bytes.take sh.len).length = sh.len :=
    List.length_take_of_le (by rw [FrameBuffer.length_bytes]; exact frameShape_len_le sh)
  obtain ⟨sh', frame, hlen, -, hbytes, rfl⟩ := exists_frame_of_decode_eq_ok h
  rw [List.append_nil] at hbytes
  subst hbytes
  obtain rfl := frameShape_len_injective (htake.symm.trans hlen)
  rw [State.frame, ← decodeShape_append (rest := s.fbuf.bytes.drop sh.len) htake, List.take_append_drop]

/-- Only a terminator is a frame of one byte (R60, R63). -/
theorem decode_singleton_eq_ok {b : Byte} {i : Instr} {more : List Byte} (h : decode [b] = .ok (i, more)) :
    shapeOfTag b = some .terminator ∧ i = .endOfTransfer := by
  obtain ⟨sh, frame, hlen, htag, hbytes, rfl⟩ := exists_frame_of_decode_eq_ok h
  have hle : frame.length ≤ [b].length := hbytes ▸ by simp
  cases sh with
  | header | data => simp [hlen] at hle
  | terminator =>
    obtain ⟨c, rfl⟩ := List.length_eq_one_iff.1 hlen
    obtain ⟨rfl, -⟩ := List.cons.inj hbytes
    exact ⟨htag, rfl⟩

/-! ### Running it -/

/-- The byte steps over an encoded frame load it and run what the buffer then holds. -/
theorem runSteps_encode {i : Instr} {s : State} {rest : List Symbol} (hwf : i.wf = true) (hf : s.fsm = .awaitTag)
    (hr : s.rst = false) (hc : s.chan = (encode i).map .byte ++ rest) :
    runSteps (encode i).length s = runFrame i.shape (loadFrame i.shape (encode i) (s.afterSymbol rest)) := by
  obtain ⟨hlen, htag⟩ := encode_length_and_shape i hwf
  obtain ⟨tag, bs, henc⟩ := List.exists_cons_of_length_pos (hlen ▸ frameShape_len_pos i.shape)
  rw [hlen]
  rw [henc] at hlen htag hc ⊢
  exact runSteps_whole_frame bs hf hr hc htag hlen

/-- Settles O46: what the buffer holds when the frame runs is the instruction encoded. -/
theorem encodedFrameRunsItsInstruction : Obligations.EncodedFrameRunsItsInstruction := by
  intro i s rest hwf hf hr hc
  have hlen := (encode_length_and_shape i hwf).1
  have hframe : (loadFrame i.shape (encode i) (s.afterSymbol rest)).frame i.shape = i :=
    (loadFrame_frame hlen).trans (decodeShape_encode hwf)
  obtain ⟨w, hw⟩ := exists_exec_eq_next i (loadFrame i.shape (encode i) (s.afterSymbol rest))
  refine ⟨_, w, hw, ?_, rfl, fun k hk => loadFrame_fbufAt (hlen ▸ frameShape_len_le i.shape) hk,
    rfl, rfl, rfl, rfl, rfl, rfl, rfl, rfl⟩
  rw [runSteps_encode hwf hf hr hc, runFrame_of_exec_eq_next hframe hw, resumeAfter_shape]

/-- A frame placed but for its last byte is a frame collected but for its last byte. -/
theorem offerLast_eq_collecting {sh : FrameShape} {bytes : List Byte} {rest : List Symbol} {s : State}
    (hr : s.rst = false) :
    offerLast sh bytes (s.afterSymbol rest) =
      collecting sh (bytes.take (sh.len - 1)) (.byte (byteAt bytes (sh.len - 1)) :: rest) s := by
  cases s
  cases hr
  rfl

/-- Settles O47: the tag and the bytes after it are collected one a step, up to the last, which is still offered. -/
theorem placedFrameIsWhereTheByteStepsArrive : Obligations.PlacedFrameIsWhereTheByteStepsArrive := by
  intro s sh bytes rest hsh hlen htag hf hr hc
  have hs : sh ≠ .terminator := by rcases hsh with rfl | rfl <;> decide
  have hplace : placeFrame bytes (s.afterSymbol rest) = offerLast sh bytes (s.afterSymbol rest) := by
    rcases hsh with rfl | rfl <;> simp only [placeFrame, htag]
  have htwo := two_le_frameShape_len hs
  have hsplit : bytes = bytes.take (sh.len - 1) ++ [byteAt bytes (sh.len - 1)] := by
    rw [byteAt_eq_getElem (by omega), List.take_append_getElem, List.take_of_length_le (by omega)]
  obtain ⟨tag, bs, hinit⟩ := List.exists_cons_of_length_pos (l := bytes.take (sh.len - 1)) (by simp; omega)
  have hbs : bs.length + 1 = sh.len - 1 := by
    rw [← List.length_cons, ← hinit, List.length_take_of_le (by omega)]
  have ht : shapeOfTag tag = some sh := by rwa [hsplit, hinit] at htag
  have hc' : s.chan = .byte tag :: (bs.map .byte ++ .byte (byteAt bytes (sh.len - 1)) :: rest) := by
    rw [hc]
    conv_lhs => rw [hsplit, hinit]
    simp
  rw [hplace, offerLast_eq_collecting hr, hinit, ← hbs]
  rw [← hbs] at hc'
  exact runSteps_partial_frame bs hs hf hr hc' ht (by omega)

/-- Settles O23: the decoder of the buffer and the decoder the tag chose read the same instruction. -/
theorem stepRunsTheDecodedFrame : Obligations.StepRunsTheDecodedFrame := by
  constructor
  · intro s sh b rest i hr hshape hc hlast hdec
    obtain ⟨hs, hf⟩ := collectingState_of_fsm hshape
    have htwo := two_le_frameShape_len hs
    obtain ⟨t, ht⟩ := exists_exec_eq_next i (takeByte sh b (s.afterSymbol rest))
    refine ⟨t, ht, ?_⟩
    rw [step_collect hs hr hf hc, collectByte, afterSymbol_cnt, if_pos (by omega), if_pos hlast,
      runFrame_of_exec_eq_next (frame_eq_of_decode_eq_ok hdec) ht, resumeAfter_of_ne_terminator hs]
    rfl
  · intro s b rest i more hr hf hc hdec
    obtain ⟨hterm, rfl⟩ := decode_singleton_eq_ok hdec
    exact step_eq_next_of_stepCase (.terminator b rest hr hf hc hterm)

end Sys2Proof.Machine
end

section
/-! PROOFS. One step of the framing state machine (O24 to O27, O29, O31, O32): what a symbol does in each state. -/

namespace Sys2Proof.Machine

/-! ### Awaiting a tag, waiting and stopping -/

theorem crc16Update_zero_one : crc16Update 0#16 0x01#8 = 0x1021#16 := by decide

/-- Settles O24: one case of a step for each tag, and its two checksums computed. -/
theorem tagByteIsDispatched : Obligations.TagByteIsDispatched := by
  rintro s u b rest hr hf hc rfl
  refine ⟨?_, ?_, ?_, fun h0 h1 h2 => ?_⟩
  · rintro rfl
    exact ⟨step_eq_next_of_stepCase (.tag .header _ rest hr hf hc rfl (by decide)), crc16Update_zero_zero⟩
  · rintro rfl
    exact ⟨step_eq_next_of_stepCase (.tag .data _ rest hr hf hc rfl (by decide)), crc16Update_zero_one⟩
  · rintro rfl
    exact step_eq_next_of_stepCase (.terminator _ rest hr hf hc rfl)
  · have hnone : shapeOfTag b = none := by simp [shapeOfTag, h0, h1, h2]
    have htag : (takeTag b (s.afterSymbol rest)).tag = b := byteAt_set_self (by simp)
    rw [step_eq_next_of_stepCase (.illegal b rest hr hf hc hnone), State.raiseFault, htag]
    rfl

/-- Settles O29: the case of a step for the two symbols that are no bytes. -/
theorem endOfStreamIsAFatalFault : Obligations.EndOfStreamIsAFatalFault := by
  rintro s sym rest cause hr hf hc (⟨rfl, rfl⟩ | ⟨rfl, rfl⟩)
  · exact step_eq_next_of_stepCase (.stop .eos rest hr (inReady_iff.2 hf) hc (.inl rfl))
  · exact step_eq_next_of_stepCase (.stop .err rest hr (inReady_iff.2 hf) hc (.inr rfl))

/-- Settles O31: without a reset only a ready engine has a step, and the reset leads to `AWAIT_TAG`. -/
theorem doneAndFaultHaveNoStep : Obligations.DoneAndFaultHaveNoStep := by
  refine ⟨fun s hr hf => by simp [step, fsmStep, hr, hf], fun s hr hf => by simp [step, fsmStep, hr, hf], ?_⟩
  intro s t hstep hf
  have hnot : s.inReady = false := by rcases hf with hf | hf <;> rw [State.inReady, hf]
  cases hr : s.rst with
  | false => exact absurd ((step_cases hstep).inReady hr) (by simp [hnot])
  | true =>
    cases (step_of_rst hr).symm.trans hstep
    exact ⟨rfl, rfl⟩

/-- Settles O32: the case of a step for an empty channel. -/
theorem waitingHoldsTheState : Obligations.WaitingHoldsTheState := fun _ hr hready hc =>
  step_eq_next_of_stepCase (.wait hr hready hc)

/-! ### A byte inside a frame -/

section TakeByte
variable {s : State} {sh : FrameShape} {b : Byte}

theorem takeByte_fbufAt_cnt (h : s.cnt.toNat < 520) : (takeByte sh b s).fbufAt s.cnt.toNat = b :=
  byteAt_set_self (by rwa [FrameBuffer.length_bytes])

theorem takeByte_cnt_toNat (h : s.cnt.toNat < 520) : (takeByte sh b s).cnt.toNat = s.cnt.toNat + 1 := by
  rw [takeByte_cnt, BitVec.toNat_add_of_lt (by simp; omega)]
  rfl

/-- A byte of the checksum field does not enter the checksum (R114, R116). -/
theorem takeByte_crcAcc_of_covered (h : sh.covered ≤ s.cnt.toNat) : (takeByte sh b s).crcAcc = s.crcAcc :=
  crcAfter_of_le h

/-- A byte after the sixth leaves the views of the first six alone (R14). -/
theorem takeByte_views (h : 6 ≤ s.cnt.toNat) :
    (takeByte sh b s).fstatus = s.fstatus ∧ (takeByte sh b s).cyl = s.cyl ∧ (takeByte sh b s).head = s.head ∧
      (takeByte sh b s).sect = s.sect := by
  have hkeep (k : Nat) (hk : k < 6) : (takeByte sh b s).fbufAt k = s.fbufAt k :=
    takeByte_fbufAt_of_ne (by omega)
  simp [State.fstatus, State.cyl, State.head, State.sect, hkeep]

theorem takeByte_crcRxH (h : s.cnt.toNat = 7) : (takeByte sh b s).crcRxH = le16 (s.fbufAt 6) b := by
  have hlast : (takeByte sh b s).fbufAt 7 = b := h ▸ takeByte_fbufAt_cnt (by omega)
  rw [State.crcRxH, hlast, takeByte_fbufAt_of_ne (by omega)]

theorem takeByte_crcRxD (h : s.cnt.toNat = 519) : (takeByte sh b s).crcRxD = le16 (s.fbufAt 518) b := by
  have hlast : (takeByte sh b s).fbufAt 519 = b := h ▸ takeByte_fbufAt_cnt (by omega)
  rw [State.crcRxD, hlast, takeByte_fbufAt_of_ne (by omega)]

/-- Once the covered bytes are in, `CRC_ACC` is their checksum (R15, R24). -/
theorem Inv.crcAcc_of_covered (hi : Inv s) (hs : sh ≠ .terminator) (hf : s.fsm = collectingState sh)
    (h : sh.covered ≤ s.cnt.toNat) : s.crcAcc = crc16 (s.fbuf.bytes.take sh.covered) := by
  rw [(crcLegal_of_collecting hs hf).1 hi.crc, Nat.min_eq_right h]

/-- All bytes of a header or data frame but the last two are covered (R67). -/
theorem covered_eq_len_sub_two (hs : sh ≠ .terminator) : sh.covered = sh.len - 2 := by
  cases sh with
  | header | data => rfl
  | terminator => exact absurd rfl hs

end TakeByte

/-- Settles O25: the case of a step for a byte that does not complete its frame, register by register. -/
theorem collectingStepStoresOneByte : Obligations.CollectingStepStoresOneByte := by
  intro s sh b rest hr hshape hc hpos hlt
  obtain ⟨hs, hf⟩ := collectingState_of_fsm hshape
  have hcnt : s.cnt.toNat < 520 := by have := frameShape_len_le sh; omega
  have hcrc : crcAfter sh.covered s.cnt.toNat b s.crcAcc =
      if s.cnt.toNat ≤ sh.len - 3 then crc16Update s.crcAcc b else s.crcAcc :=
    if_congr (by rw [covered_eq_len_sub_two hs]; omega) rfl rfl
  refine ⟨_, step_eq_next_of_stepCase (.byte sh b rest hr hs hf hc hpos hlt), fun k _ => ?_, hcrc,
    takeByte_cnt_toNat hcnt, rfl, rfl, rfl, rfl, rfl, rfl, rfl, rfl, rfl⟩
  split
  · next hk => rw [hk]; exact takeByte_fbufAt_cnt (s := s.afterSymbol rest) hcnt
  · next hk => exact takeByte_fbufAt_of_ne hk

/-! ### The last byte of a frame -/

/-- Settles O26: the case of a step for a completed header, its views and its checksum read from the old state. -/
theorem headerFrameCompletesInItsLastStep : Obligations.HeaderFrameCompletesInItsLastStep := by
  intro s b rest hi hr hf hn hc
  have hn' : (s.afterSymbol rest).cnt.toNat = 7 := hn
  obtain ⟨hstatus, hcyl, hhead, hsect⟩ := takeByte_views (sh := .header) (b := b) (s := s.afterSymbol rest) (by omega)
  have hacc : (takeByte .header b (s.afterSymbol rest)).crcAcc = s.crcAcc :=
    takeByte_crcAcc_of_covered (by rw [hn']; decide)
  have hcrc : s.crcAcc = crc16 (s.fbuf.bytes.take 6) :=
    hi.crcAcc_of_covered (sh := .header) (by decide) hf (by rw [hn]; decide)
  refine ⟨_, step_eq_next_of_stepCase (.header b rest hr hf hc hn), rfl, rfl, rfl, congrArg some hhead,
    congrArg some hsect, hacc, rfl, rfl, rfl, rfl, ?_⟩
  rw [headerDone_out, hstatus, hcyl, hhead, hsect, takeByte_crcRxH hn', headerRecord, hacc, hcrc]
  rfl

/-- The geometry registers decide `lba_undef` as R166 says, where they hold a value exactly after a header (R17). -/
theorem lbaUndef_eq {s : State} {sector : Byte} (h : s.maxSector.isSome = s.hdrSeen) :
    lbaUndef s sector = (s.hdrSeen && (s.maxSector == some 0#8 || sector == 0#8)) := by
  cases hm : s.maxSector with
  | none => simp [lbaUndef, ← h, hm]
  | some ms => simp [lbaUndef, lbaUndefined, State.readMaxSector, hm]

theorem written_eq {s : State} {sector : Byte} (h : s.maxSector.isSome = s.hdrSeen) :
    written s sector = (s.hdrSeen && !(s.maxSector == some 0#8 || sector == 0#8)) := by
  rw [written, lbaUndef_eq h]
  cases s.hdrSeen <;> rfl

/-- The sink operation of a completed data frame, where it has an offset (R144, R146). -/
def dataWrite (v : State) : List Output :=
  match dataOffset v.cyl v.head v.sect v with
  | some o => [.sink (.write o v.payload)]
  | none => []

/-- The sink operation stands before the event (R52). -/
theorem dataOutputs_eq (v : State) :
    dataOutputs v = dataWrite v ++ [.event (.data (dataRecord v.fstatus v.cyl v.head v.sect v.crcRxD v))] := by
  unfold dataOutputs dataWrite
  cases dataOffset v.cyl v.head v.sect v <;> rfl

theorem takeByte_dataWrite {s : State} {sh : FrameShape} {b : Byte} (h : s.cnt.toNat = 519) :
    dataWrite (takeByte sh b s) = dataWrite s := by
  rw [dataWrite, takeByte_dataOffset h, takeByte_payload h, dataWrite]

/-- Settles O27: the case of a step for a completed data frame, its views and its checksum read from the old state. -/
theorem dataFrameCompletesInItsLastStep : Obligations.DataFrameCompletesInItsLastStep := by
  intro s b rest hi hr hf hn hc
  have hn' : (s.afterSymbol rest).cnt.toNat = 519 := hn
  obtain ⟨hstatus, hcyl, hhead, hsect⟩ := takeByte_views (sh := .data) (b := b) (s := s.afterSymbol rest) (by omega)
  have hacc : (takeByte .data b (s.afterSymbol rest)).crcAcc = s.crcAcc :=
    takeByte_crcAcc_of_covered (by rw [hn']; decide)
  have hcrc : s.crcAcc = crc16 (s.fbuf.bytes.take 518) :=
    hi.crcAcc_of_covered (sh := .data) (by decide) hf (by rw [hn]; decide)
  have hmax : (takeByte .data b (s.afterSymbol rest)).maxSector.isSome = s.hdrSeen := hi.maxSector
  refine ⟨_, step_eq_next_of_stepCase (.data b rest hr hf hc hn), dataDone_fsm _, dataDone_cnt _, dataDone_hdrSeen _,
    dataDone_maxHead _, dataDone_maxSector _, (dataDone_crcAcc _).trans hacc, dataDone_faultCause _, dataDone_chan _,
    dataDone_sinkOpen _, ?_⟩
  rw [dataDone_out, dataOutputs_eq, takeByte_dataWrite hn', takeByte_crcRxD hn', hstatus, hcyl, hhead, hsect,
    dataRecord, hacc, hcrc, lbaUndef_eq hmax, written_eq hmax, ← List.append_assoc]
  rfl

end Sys2Proof.Machine
end

section
/-! PROOFS. Control along a run (O36, O37, O44): where a step leads, and that a stream with an end ends the run. -/

namespace Sys2Proof.Machine

/-! ### Where a step leads -/

/-- Settles O36: each case of a step is a row of the table. -/
theorem controlFollowsTheTransitionTable : Obligations.ControlFollowsTheTransitionTable := by
  intro s t sym rest hi hr hc hstep
  have offers {sym' : Symbol} {rest' : List Symbol} (hc' : s.chan = sym' :: rest') : sym = sym' :=
    (List.cons.inj (hc.symm.trans hc')).1
  cases step_cases hstep with
  | reset hr' => exact absurd (hr.symm.trans hr') (by decide)
  | wait _ _ hc' => cases hc.symm.trans hc'
  | tag sh b rest' _ hf hc' ht hs =>
    cases offers hc'
    cases sh with
    | header => obtain rfl := shapeOfTag_eq_header.1 ht; rw [hf]; rfl
    | data => obtain rfl := shapeOfTag_eq_data.1 ht; rw [hf]; rfl
    | terminator => exact absurd rfl hs
  | terminator b rest' _ hf hc' ht =>
    cases offers hc'
    obtain rfl := shapeOfTag_eq_terminator.1 ht
    rw [hf]
    rfl
  | illegal b rest' _ hf hc' ht =>
    cases offers hc'
    obtain ⟨hhdr, hdat, hend⟩ : b ≠ 0x00#8 ∧ b ≠ 0x01#8 ∧ b ≠ 0xFF#8 := by
      refine ⟨?_, ?_, ?_⟩ <;> rintro rfl <;> cases ht
    rw [hf, controlAfter, if_neg hhdr, if_neg hdat, if_neg hend]
    rfl
  | stop sym' rest' _ hready hc' hs =>
    cases offers hc'
    rcases inReady_iff.1 hready with hf | hf | hf
    · have hcnt : s.cnt.toNat = 0 := by have := hi.cnt; rwa [cntLegal, hf] at this
      rcases hs with rfl | rfl <;> rw [hf] <;> exact congrArg (Prod.mk _) hcnt
    · rcases hs with rfl | rfl <;> rw [hf] <;> rfl
    · rcases hs with rfl | rfl <;> rw [hf] <;> rfl
  | byte sh b rest' _ hs hf hc' hpos hlt =>
    cases offers hc'
    have hcnt : (takeByte sh b (s.afterSymbol rest')).cnt.toNat = s.cnt.toNat + 1 :=
      takeByte_cnt_toNat (by have := frameShape_len_le sh; rw [afterSymbol_cnt]; omega)
    rw [hcnt, takeByte_fsm, afterSymbol_fsm, hf]
    cases sh with
    | header | data => exact (if_neg (by simp at hlt; omega)).symm
    | terminator => exact absurd rfl hs
  | header b rest' _ hf hc' hn => cases offers hc'; rw [hf, hn]; rfl
  | data b rest' _ hf hc' hn => cases offers hc'; rw [hf, hn, dataDone_fsm, dataDone_cnt]; rfl

/-- Settles O37: each case of a step names the symbol it consumes. -/
theorem eachStepConsumesOneSymbol : Obligations.EachStepConsumesOneSymbol := fun _ _ hr hstep =>
  (step_cases hstep).chan_eq_tail hr

/-! ### The end of a run -/

/-- No step raises the reset input: the host does (R210). -/
theorem StepCase.rst_eq_false {s t : State} (h : StepCase s t) : t.rst = false := by
  cases h with
  | reset => rfl
  | data _ _ hr => rw [dataDone_rst]; exact hr
  | wait hr | tag _ _ _ hr | terminator _ _ hr | illegal _ _ hr | stop _ _ hr | byte _ _ _ hr | header _ _ hr =>
    exact hr

theorem inReady_eq_not_ended (s : State) : s.inReady = !s.ended := by
  cases hf : s.fsm <;> simp [State.inReady, State.ended, hf]

/-- `EOS` and `ERR` end the run in the step that takes them (R113, R118). -/
theorem StepCase.ended_of_stop {s t : State} {sym : Symbol} {rest : List Symbol} (h : StepCase s t)
    (hr : s.rst = false) (hc : s.chan = sym :: rest) (hsym : sym = .eos ∨ sym = .err) : t.ended = true := by
  have hstop := step_eq_next_of_stepCase (.stop sym rest hr (h.inReady hr) hc hsym)
  cases (step_eq_next_of_stepCase h).symm.trans hstop
  rfl

/-- Settles O44, by induction on the symbols: each has its step, and the run goes on until one ends it. -/
theorem runEndsOnceTheStreamEnds : Obligations.RunEndsOnceTheStreamEnds := by
  intro s hi hr hready hend
  induction hchan : s.chan generalizing s with
  | nil => simp [hchan] at hend
  | cons sym rest ih =>
    obtain ⟨t, hcase⟩ := exists_stepCase_of_inReady hi hr hready hchan
    have hstep := step_eq_next_of_stepCase hcase
    cases hended : t.ended with
    | true => exact ⟨1, t, by simp, by rw [runSteps_one, hstep], hended⟩
    | false =>
      have hrest : t.chan = rest := by rw [hcase.chan_eq_tail hr, hchan]; rfl
      have hsym : ¬(sym = .eos ∨ sym = .err) := fun hs => by
        simp [hcase.ended_of_stop hr hchan hs] at hended
      have hend' : Symbol.eos ∈ t.chan ∨ Symbol.err ∈ t.chan := by
        rw [hchan, List.mem_cons, List.mem_cons] at hend
        rw [hrest]
        exact hend.imp (fun h => h.resolve_left fun he => hsym (.inl he.symm))
          (fun h => h.resolve_left fun he => hsym (.inr he.symm))
      obtain ⟨n, u, hn, hrun, hu⟩ := ih t (everyStepKeepsTheInvariant s t hi hstep) hcase.rst_eq_false
        (by rw [inReady_eq_not_ended, hended]; rfl) hend' hrest
      exact ⟨n + 1, u, by simpa using hn, by rw [runSteps_succ hstep, hrun], hu⟩

end Sys2Proof.Machine
end

section
/-! PROOFS. The frame operations (O15 to O22): where a data frame lands under a geometry, and what each operation changes
and leaves unchanged. -/

namespace Sys2Proof.Machine

/-! ### The place of a data frame -/

theorem lbaUndefined_iff {ms sector : Byte} : lbaUndefined ms sector = true ↔ ms = 0#8 ∨ sector = 0#8 := by
  simp [lbaUndefined]

section Geometry
variable {s : State} {mh ms : Byte} {cy : Half} {hd sc : Byte}

theorem lbaUndef_of_geometry (hseen : s.hdrSeen = true) (hms : s.maxSector = some ms) :
    lbaUndef s sc = lbaUndefined ms sc := by
  simp [lbaUndef, hseen, State.readMaxSector, hms]

theorem written_of_geometry (hseen : s.hdrSeen = true) (hms : s.maxSector = some ms) :
    written s sc = !lbaUndefined ms sc := by
  simp [written, hseen, lbaUndef_of_geometry hseen hms]

/-- Under a geometry a data frame is mapped with the registers' values (R144), undefined LBAs included (R166). -/
theorem dataLba_of_geometry (hseen : s.hdrSeen = true) (hmh : s.maxHead = some mh) (hms : s.maxSector = some ms) :
    dataLba cy hd sc s = lba mh ms cy hd sc := by
  rw [dataLba, written_of_geometry hseen hms, State.readMaxHead, hmh, State.readMaxSector, hms]
  cases hundef : lbaUndefined ms sc with
  | true => simp [lba, hundef]
  | false => rfl

theorem lba_of_defined (h : lbaUndefined ms sc = false) :
    lba mh ms cy hd sc = some (BitVec.ofNat 32 (lbaNat mh ms cy hd sc)) := by
  simp [lba, h]

theorem dataLba_of_not_written (h : written s sc = false) : dataLba cy hd sc s = none := by
  simp [dataLba, h]

end Geometry

/-! ### The header operation -/

/-- Settles O15: the geometry is stored before the one event, whose fields do not depend on it. -/
theorem headerOperationStoresTheGeometryAndReports : Obligations.HeaderOperationStoresTheGeometryAndReports :=
  fun st mc mh ms crc s => ⟨_, exec_hdr st mc mh ms crc s, rfl, rfl, rfl, emit_out ..⟩

/-- Settles O16: the store of the geometry and one event keep everything else. -/
theorem headerOperationFrame : Obligations.HeaderOperationFrame := by
  intro st mc mh ms crc s t h
  rw [exec_hdr] at h
  cases h
  exact ⟨rfl, rfl, rfl, rfl, rfl, rfl, rfl, rfl, fun _ => rfl, _, emit_out ..⟩

/-- Settles O17: the second header runs as the first on the state the first left, and its geometry is what the mapper
reads. -/
theorem laterHeaderReplacesTheGeometry : Obligations.LaterHeaderReplacesTheGeometry := by
  intro st st' mc mc' mh mh' ms ms' crc crc' s
  exact ⟨_, _, _, _, exec_hdr st mc mh ms crc s, exec_hdr st' mc' mh' ms' crc' _, rfl, rfl, rfl, rfl,
    List.append_assoc s.out _ _, rfl, fun cy hd sc => dataLba_of_geometry rfl rfl rfl⟩

/-! ### The data operation -/

@[simp] theorem emit_registers (e : Event) (s : State) : (s.emit e).registers = s.registers := rfl

@[simp] theorem writePayload_registers (off : Option (BitVec 41)) (pl : List Byte) (s : State) :
    (writePayload off pl s).registers = s.registers := by
  cases off <;> rfl

/-- The write of a payload keeps every byte outside its block, and every byte where it is suppressed (R146). -/
theorem read_writePayload_outside {off : Option (BitVec 41)} {pl : List Byte} {s : State} {a : Nat}
    (h : ∀ o, off = some o → ¬(o.toNat ≤ a ∧ a < o.toNat + pl.length)) :
    Memory.read (writePayload off pl s).image a = Memory.read s.image a := by
  cases off with
  | none => rfl
  | some o => exact Memory.read_write_outside (h o rfl)

/-- A data frame that is not written is only reported, without an LBA and an offset (R146, R191). -/
theorem exec_dat_of_not_written {s : State} {sc : Byte} (h : written s sc = false) (st : Byte) (cy : Half) (hd : Byte)
    (pl : List Byte) (crc : Half) :
    exec (.dat st cy hd sc pl crc) s = .next (s.emit (.data
      { dataRecord st cy hd sc crc s with written := false, lba := none, offset := none })) := by
  rw [exec_dat, dataRecord, dataOffset_of_not_written h, dataLba_of_not_written h, h, writePayload_none]

/-- Settles O18: the geometry gives the frame its LBA, and the write puts each byte of the payload at its place. -/
theorem dataOperationWritesItsBlock : Obligations.DataOperationWritesItsBlock := by
  intro st cy hd sc pl crc s mh ms hlen hseen hmh hms hms0 hsc0
  have hdef : lbaUndefined ms sc = false := by
    rw [Bool.eq_false_iff, ne_eq, lbaUndefined_iff]
    exact not_or.2 ⟨hms0, hsc0⟩
  have hlba : dataLba cy hd sc s = lba mh ms cy hd sc := dataLba_of_geometry hseen hmh hms
  rw [lba_of_defined hdef] at hlba
  have hoff : dataOffset cy hd sc s = some (offset (BitVec.ofNat 32 (lbaNat mh ms cy hd sc))) := by
    rw [dataOffset, hlba, Option.map_some]
  refine ⟨_, _, exec_dat st cy hd sc pl crc s, lba_of_defined hdef, fun j hj => ?_, ?_⟩
  · rw [hoff, writePayload_some, emit_image, sinkWrite_image, offset_toNat]
    exact Memory.read_write_inside (hlen ▸ hj)
  · rw [hoff, writePayload_some, emit_out, sinkWrite_out, List.append_assoc, dataRecord, hoff, hlba,
      lbaUndef_of_geometry hseen hms, written_of_geometry hseen hms, hdef, orderViol, hseen]
    rfl

/-- Settles O19: before any header the frame is not written. -/
theorem dataBeforeAnyHeaderIsReportedAndDropped : Obligations.DataBeforeAnyHeaderIsReportedAndDropped := by
  intro st cy hd sc pl crc s hseen
  have hundef : lbaUndef s sc = false := by rw [lbaUndef, hseen, Bool.false_and]
  have hwritten : written s sc = false := by rw [written, hseen, Bool.false_and]
  refine ⟨_, exec_dat_of_not_written hwritten st cy hd pl crc, emit_registers .., emit_image .., ?_⟩
  rw [emit_out, dataRecord, orderViol, hseen, hundef]
  rfl

/-- Settles O20: under a geometry a frame with no LBA is not written. -/
theorem dataWithoutAnLbaIsReportedAndDropped : Obligations.DataWithoutAnLbaIsReportedAndDropped := by
  intro st cy hd sc pl crc s ms hseen hms hzero
  have hundef : lbaUndef s sc = true := by rw [lbaUndef_of_geometry hseen hms, lbaUndefined_iff.2 hzero]
  have hwritten : written s sc = false := by
    rw [written_of_geometry hseen hms, lbaUndefined_iff.2 hzero, Bool.not_true]
  refine ⟨_, exec_dat_of_not_written hwritten st cy hd pl crc, emit_registers .., emit_image .., ?_⟩
  rw [emit_out, dataRecord, orderViol, hseen, hundef]
  rfl

/-- Settles O21: neither the write of the payload nor the event touches a register, and the write keeps every byte
outside its block. -/
theorem dataOperationFrame : Obligations.DataOperationFrame := by
  intro st cy hd sc pl crc s _ hlen h
  rw [exec_dat] at h
  cases h
  exact ⟨writePayload_registers .., writePayload_chan .., writePayload_rst .., writePayload_sinkOpen ..,
    fun _ ha => read_writePayload_outside (hlen ▸ ha)⟩

/-! ### The terminator's operation -/

/-- Settles O22: the state after a terminator, field by field. -/
theorem terminatorClosesTheSinkAndStops : Obligations.TerminatorClosesTheSinkAndStops := fun s =>
  ⟨endDone s, exec_endOfTransfer s, rfl, rfl, rfl, endDone_out s, rfl, rfl, rfl, rfl, rfl, rfl, rfl, rfl, fun _ => rfl⟩

end Sys2Proof.Machine
end

section
/-! PROOFS. The geometry-to-offset mapper (O11 to O14): the track index and the LBA as mixed-radix numerals, the LBA's
width, and the sender's enumeration of a geometry. -/

namespace Sys2Proof.Machine

/-! ### Numerals of two digits -/

/-- A numeral whose lower digit is below the radix grows in the lexicographic order of its digits. -/
theorem mul_add_lt_mul_add_of_lex {n a a' b b' : Nat} (hb : b < n) (h : a < a' ∨ a = a' ∧ b < b') :
    a * n + b < a' * n + b' := by
  rcases h with ha | ⟨rfl, hlt⟩
  · calc
      a * n + b < (a + 1) * n := by rw [Nat.succ_mul]; omega
      _ ≤ a' * n := Nat.mul_le_mul_right n ha
      _ ≤ a' * n + b' := Nat.le_add_right ..
  · omega

/-- A numeral whose digits are below `m` and `n` is below `m * n`, also where its multiplier `d` is less than `n`: a
geometry's head and sector counts are at most the radices their fields allow. -/
theorem mul_add_lt_mul {m n d a b : Nat} (ha : a < m) (hd : d ≤ n) (hb : b < n) : a * d + b < m * n :=
  calc
    a * d + b ≤ a * n + b := Nat.add_le_add_right (Nat.mul_le_mul_left a hd) b
    _ < m * n := mul_add_lt_mul_add_of_lex (b' := 0) hb (.inl ha)

theorem mul_add_div_of_lt {n a b : Nat} (hb : b < n) : (a * n + b) / n = a := by
  rw [Nat.mul_comm, Nat.mul_add_div (by omega), Nat.div_eq_of_lt hb, Nat.add_zero]

/-- The numerals of `m` upper and `n` lower digits, the upper digit outermost, are the first `m * n` numbers in order. -/
theorem flatMap_range_mul_add (m n : Nat) :
    (List.range m).flatMap (fun a => (List.range n).map fun b => a * n + b) = List.range (m * n) := by
  induction m with
  | zero => simp
  | succ m ih =>
    rw [List.range_succ, List.flatMap_append, ih, List.flatMap_singleton, Nat.succ_mul, List.range_add]

/-! ### The LBA and its width -/

section Formula
variable {mh ms : Byte} {cy : Half} {hd sc : Byte}

/-- The LBA has no value exactly where R166 leaves it undefined. -/
theorem lba_eq_none_iff : lba mh ms cy hd sc = none ↔ lbaUndefined ms sc = true := by
  cases hundef : lbaUndefined ms sc with
  | true => simp [lba, hundef]
  | false => simp [lba_of_defined hundef]

/-- The track index fits 24 bits (R163). -/
theorem trackIndex_lt : trackIndex mh cy hd < 2 ^ 24 :=
  mul_add_lt_mul (m := 2 ^ 16) (n := 2 ^ 8) cy.isLt mh.isLt hd.isLt

/-- The formula's value fits 32 bits (R163). -/
theorem lbaNat_lt : lbaNat mh ms cy hd sc < 2 ^ 32 :=
  mul_add_lt_mul (m := 2 ^ 24) (n := 2 ^ 8) trackIndex_lt ms.isLt.le (Nat.sub_lt_of_lt sc.isLt)

end Formula

/-- Settles O11: the formula's value fits 32 bits, so that `lba` holds it unchanged. -/
theorem lbaAndOffsetAreExact : Obligations.LbaAndOffsetAreExact := by
  intro mh ms cy hd sc hms hsc
  have hdef : lbaUndefined ms sc = false := by
    rw [Bool.eq_false_iff, ne_eq, lbaUndefined_iff]
    exact not_or.2 ⟨hms, hsc⟩
  exact ⟨_, lba_of_defined hdef, Nat.mod_eq_of_lt lbaNat_lt, offset_toNat _⟩

/-- Settles O12: the bound on the LBA bounds its block, and the last sector of the largest geometry reaches it. -/
theorem lbaAndOffsetStayWithinTheirWidths : Obligations.LbaAndOffsetStayWithinTheirWidths := by
  refine ⟨fun mh ms cy hd sc l hl => ?_, 255#8, 255#8, 65535#16, 255#8, 255#8, by decide⟩
  have hle := lba_toNat_le hl
  rw [offset_toNat]
  omega

/-- Settles O13: `lba` answers no value where it is undefined, and only there. -/
theorem lbaHasNoValueExactlyWhereUndefined : Obligations.LbaHasNoValueExactlyWhereUndefined :=
  fun _ _ _ _ _ => lba_eq_none_iff.trans lbaUndefined_iff

/-! ### The sender's order -/

/-- The LBA on the triple of the naturals `c`, `h` and `s + 1`, as the enumeration writes it. -/
theorem lbaNat_ofNat {mh ms : Byte} {c h s : Nat} (hc : c < 2 ^ 16) (hh : h < 2 ^ 8) (hs : s + 1 < 2 ^ 8) :
    lbaNat mh ms (BitVec.ofNat 16 c) (BitVec.ofNat 8 h) (BitVec.ofNat 8 (s + 1)) =
      (c * (mh.toNat + 1) + h) * ms.toNat + s := by
  rw [lbaNat, trackIndex, BitVec.toNat_ofNat, BitVec.toNat_ofNat, BitVec.toNat_ofNat, Nat.mod_eq_of_lt hc,
    Nat.mod_eq_of_lt hh, Nat.mod_eq_of_lt hs, Nat.add_sub_cancel]

/-- The LBAs of a geometry's triples: for each track in turn, those of its sectors. -/
theorem map_lbaNat_enumeration (g : Geometry) :
    (enumeration g).map (fun t => lbaNat g.maxHead g.maxSector t.1 t.2.1 t.2.2) =
      (List.range (g.maxCylinder.toNat + 1)).flatMap fun c =>
        (List.range (g.maxHead.toNat + 1)).flatMap fun h =>
          (List.range g.maxSector.toNat).map fun s =>
            (c * (g.maxHead.toNat + 1) + h) * g.maxSector.toNat + s := by
  have hC := g.maxCylinder.isLt
  have hH := g.maxHead.isLt
  have hS := g.maxSector.isLt
  simp only [enumeration, List.map_flatMap, List.map_map]
  refine List.flatMap_congr fun c hc => List.flatMap_congr fun h hh => List.map_congr_left fun s hs => ?_
  rw [List.mem_range] at hc hh hs
  exact lbaNat_ofNat (by omega) (by omega) (by omega)

/-- The `k`-th triple of the sender's enumeration has LBA `k` (R167). -/
theorem map_lbaNat_enumeration_eq_range (g : Geometry) :
    (enumeration g).map (fun t => lbaNat g.maxHead g.maxSector t.1 t.2.1 t.2.2) =
      List.range ((g.maxCylinder.toNat + 1) * (g.maxHead.toNat + 1) * g.maxSector.toNat) := by
  rw [map_lbaNat_enumeration, ← flatMap_range_mul_add, ← flatMap_range_mul_add, List.flatMap_assoc]
  simp only [List.flatMap_map]

section Triples
variable {mh ms : Byte} {c c' : Half} {h h' s s' : Byte}

theorem trackIndex_lt_of_lex (hh : h.toNat ≤ mh.toNat)
    (hlex : c.toNat < c'.toNat ∨ c = c' ∧ h.toNat < h'.toNat) : trackIndex mh c h < trackIndex mh c' h' :=
  mul_add_lt_mul_add_of_lex (Nat.lt_succ_of_le hh) (hlex.imp_right (And.imp_left (congrArg _)))

/-- The LBA grows in the lexicographic order of the triples: either the track does, or the sector on one track (R167). -/
theorem lbaNat_lt_of_lex (hh : h.toNat ≤ mh.toNat) (hs : 1 ≤ s.toNat) (hsms : s.toNat ≤ ms.toNat)
    (hlex : c.toNat < c'.toNat ∨ c = c' ∧ (h.toNat < h'.toNat ∨ h = h' ∧ s.toNat < s'.toNat)) :
    lbaNat mh ms c h s < lbaNat mh ms c' h' s' := by
  refine mul_add_lt_mul_add_of_lex (by omega) ?_
  rcases hlex with hc | ⟨rfl, hhd | ⟨rfl, hsc⟩⟩
  · exact .inl (trackIndex_lt_of_lex hh (.inl hc))
  · exact .inl (trackIndex_lt_of_lex hh (.inr ⟨rfl, hhd⟩))
  · exact .inr ⟨rfl, by omega⟩

/-- `chsOfBlock` takes the LBA's digits back: sector in the track, head in the cylinder, cylinder (R167). -/
theorem chsOfBlock_lbaNat (hh : h.toNat ≤ mh.toNat) (hs : 1 ≤ s.toNat) (hsms : s.toNat ≤ ms.toNat) :
    chsOfBlock (mh.toNat + 1) ms.toNat (lbaNat mh ms c h s) = (c.toNat, h.toNat, s.toNat) := by
  have hsector : s.toNat - 1 < ms.toNat := by omega
  have hhead : h.toNat < mh.toNat + 1 := Nat.lt_succ_of_le hh
  have htrack : lbaNat mh ms c h s / ms.toNat = trackIndex mh c h := mul_add_div_of_lt hsector
  have hcyl : trackIndex mh c h / (mh.toNat + 1) = c.toNat := mul_add_div_of_lt hhead
  have hheadDigit : trackIndex mh c h % (mh.toNat + 1) = h.toNat := Nat.mul_add_mod_of_lt hhead
  have hsectorDigit : lbaNat mh ms c h s % ms.toNat = s.toNat - 1 := Nat.mul_add_mod_of_lt hsector
  rw [chsOfBlock, Nat.mul_comm (mh.toNat + 1), ← Nat.div_div_eq_div_mul, htrack, hcyl, hheadDigit, hsectorDigit,
    Nat.sub_add_cancel hs]

end Triples

/-- Settles O14: the LBA is the numeral with the digits cylinder, head and sector - 1. -/
theorem mapperIsABijectionInTheSendersOrder : Obligations.MapperIsABijectionInTheSendersOrder :=
  ⟨map_lbaNat_enumeration_eq_range,
    fun _ _ _ _ _ _ _ _ hh _ hs hsms _ _ hlex => lbaNat_lt_of_lex hh hs hsms hlex,
    fun _ _ _ _ _ hh hs hsms => chsOfBlock_lbaNat hh hs hsms⟩

end Sys2Proof.Machine
end

section
/-! PROOFS. Exceptions (O28, O30): a reported condition leaves control alone, a fatal one discards the frame in progress. -/

namespace Sys2Proof.Machine

/-- Settles O28: both completed frames have their case of a step, whatever their bytes are. -/
theorem reportedConditionsNeverChangeControl : Obligations.ReportedConditionsNeverChangeControl := by
  rintro s b rest hr hc (⟨hf, hn⟩ | ⟨hf, hn⟩)
  · exact ⟨_, step_eq_next_of_stepCase (.header b rest hr hf hc hn), headerDone_fsm _, headerDone_cnt _⟩
  · exact ⟨_, step_eq_next_of_stepCase (.data b rest hr hf hc hn), dataDone_fsm _, dataDone_cnt _⟩

/-- A step enters `FAULT` through `raiseFault` alone, and before it only the symbol was taken: the channel and the
registers of the frame in progress may have moved, nothing else (R186, R187). -/
theorem StepCase.eq_raiseFault {s t : State} (h : StepCase s t) (hs : s.fsm ≠ .fault) (ht : t.fsm = .fault) :
    ∃ (cause : FaultCause) (chan : List Symbol) (fbuf : FrameBuffer) (crcAcc : Half) (cnt : BitVec 10),
      cause ≠ .none ∧
        t = State.raiseFault cause { s with chan := chan, fbuf := fbuf, crcAcc := crcAcc, cnt := cnt } := by
  cases h with
  | illegal => exact ⟨.unknownTag, _, _, _, _, by decide, rfl⟩
  | stop sym _ _ _ _ hsym => exact ⟨endCause sym, _, _, _, _, by rcases hsym with rfl | rfl <;> decide, rfl⟩
  | wait => exact absurd ht hs
  | tag sh => exact absurd ht (collectingState_ne_fault sh)
  | byte => exact absurd ht hs
  | reset | terminator | header | data => simp at ht

/-- Settles O30: `raiseFault` sets the cause and reports it, and keeps the geometry, the image and the sink. -/
theorem faultEntryIsPrecise : Obligations.FaultEntryIsPrecise := by
  intro s t hstep hs ht
  obtain ⟨cause, chan, fbuf, crcAcc, cnt, hcause, rfl⟩ := (step_cases hstep).eq_raiseFault hs ht
  exact ⟨hcause, rfl, rfl, rfl, rfl, rfl, rfl⟩

end Sys2Proof.Machine
end
